-- ==== Sys2Proof/Word.lean ====
section
/-! DEFINITION. The value types of the spec's notation (00_scope.md rule R10): unsigned bit-vectors, bit 0 least
significant. All arithmetic of the model is `BitVec` arithmetic, which wraps modulo 2^N (rule R11): `+`, `-`, `*` are
`addN`, `subN`, `mulN`; `<<<`, `>>>` are the logical shifts `shlN`, `shrN`; `rotateLeft` is `rotlN`; `%` is `umod`;
`setWidth` is `zext_N` and `trunc_N`; `signExtend` is `sext_N`; `BitVec.toInt` is `signed_N`. -/

namespace Sys2Proof

abbrev U8 := BitVec 8
abbrev U16 := BitVec 16
abbrev U32 := BitVec 32
abbrev U64 := BitVec 64

end Sys2Proof
end

