-- ==== Sys2Proof/Syntax.lean ====
section
/-! DEFINITION. The commands of the block (30_encoding.md): the ten instructions of rule R63, the fields of the one
command format `C` (rule R61), and the operations a running command can name (`OPL`, 10_state.md rule R26). -/

namespace Sys2Proof

/-- Operand presence, the field `ABS` (R61): a buffer is present (its length, possibly 0, is in `ARG`), or the operand
is absent (NULL). -/
inductive Presence where
  | present
  | absent
  deriving DecidableEq, Repr, Inhabited

/-- The three hash algorithms (`ASEL` 0, 1, 2 of R61). -/
inductive Alg where
  | ck
  | jk
  | fn
  deriving DecidableEq, Repr, Inhabited

/-- The three result widths of a hash command (`WSEL` 1, 2, 3 of R61). -/
inductive Width where
  | w16
  | w32
  | w64
  deriving DecidableEq, Repr, Inhabited

/-- `W`, the width in bits: `8 * 2^WSEL` (R62). -/
abbrev Width.bits : Width → Nat
  | .w16 => 16
  | .w32 => 32
  | .w64 => 64

/-- One of the nine hash operations: what the latch `OPL` holds (R26, R31). -/
structure HashOp where
  alg : Alg
  width : Width
  deriving DecidableEq, Repr, Inhabited

/-- The ten commands (R63), one constructor per row of spec/opcode_table.json. -/
inductive Instr where
  | tlkup (i : U8)
  | ck16 (p : Presence)
  | ck32 (p : Presence)
  | ck64 (p : Presence)
  | jk16 (p : Presence)
  | jk32 (p : Presence)
  | jk64 (p : Presence)
  | fn16 (p : Presence)
  | fn32 (p : Presence)
  | fn64 (p : Presence)
  deriving DecidableEq, Repr, Inhabited

/-- The fields of format `C` (R61), for any 16-bit word, legal or not. -/
structure Fields where
  asel : BitVec 2
  wsel : BitVec 2
  abs : BitVec 1
  rsv : BitVec 3
  idx8 : U8
  deriving DecidableEq, Repr

end Sys2Proof
end

