-- ==== Sys2Proof/Config.lean ====
section
/-! DEFINITION. What an implementation fixes and what the spec leaves open. The open parameters of 00_scope.md rule R8
are constants WITHOUT A BODY: no proof can use a value of one, so a theorem holds for every value the spec allows. The
constraints the spec puts on them are built into their types (a permutation, a range), nothing else is. -/

namespace Sys2Proof

/-- How far `LENW` lies from its default 32 (D6). -/
opaque Config.lenwFromDefault : Int

/-- `LENW`: the width in bits of `ARG`, `LEN`, `IDX` and of a `BUF` index, any positive integer (R8, D6). No proof can
use the default. Log 1, safe. -/
def Config.lenw : Nat := max 1 (32 + Config.lenwFromDefault).toNat

/-- `T_ROM`: the contents of the 256 x 8 table ROM, known only to be a bijection of 0..255 (R30, R81). Log 2, safe. -/
opaque Config.tRom : Equiv.Perm U8

/-- The first sub-hash `S1(h, c, n)` of `MIX`, an expression over `h`, `c`, `n` using the table (its first argument)
that the source does not print (R92, N2). Log 3, safe. -/
opaque Config.subHash1 : (U8 → U8) → U32 → U32 → U32 → U32

/-- The second sub-hash `S2(h, c, n)` (R92). Log 3, safe. -/
opaque Config.subHash2 : (U8 → U8) → U32 → U32 → U32 → U32

/-- The table index the third sub-hash forms from `p(h, c, n)` (first argument) and `h`, `c`, `n`; not in the source
(R93). Log 3, safe. -/
opaque Config.subHash3Index : U32 → U32 → U32 → U32 → U8

/-- How the byte looked up (first argument), `p`, `h`, `c` and `n` become the 32-bit value `S3(h, c, n)`; not in the
source (R93). Log 3, safe. -/
opaque Config.subHash3Value : U8 → U32 → U32 → U32 → U32 → U32

/-- The fourth sub-hash `S4(h, c, n)` (R92). Log 3, safe. -/
opaque Config.subHash4 : (U8 → U8) → U32 → U32 → U32 → U32

/-- Which of the 2^32 - 15402 numbers above 15401 `JK_NULL32` is. -/
opaque Config.jkNull32Pick : Fin 4294951894

/-- `JK_NULL32`: any 32-bit number larger than 15401 (R8, R119, D11). Log 4, safe. -/
def Config.jkNull32 : U32 := BitVec.ofNat 32 (15402 + Config.jkNull32Pick.val)

/-- Which of the 2^64 - 15403 numbers above 15401 and different from `JK_NULL32` the constant `JK_NULL64` is. -/
opaque Config.jkNull64Pick : Fin 18446744073709536213

/-- `JK_NULL64`: any 64-bit number larger than 15401 and different from `JK_NULL32` (R8, R119, D11): the numbers from
15402 up with `JK_NULL32` left out. Log 4, safe. -/
def Config.jkNull64 : U64 :=
  if 15402 + Config.jkNull64Pick.val < Config.jkNull32.toNat then BitVec.ofNat 64 (15402 + Config.jkNull64Pick.val)
  else BitVec.ofNat 64 (15403 + Config.jkNull64Pick.val)

/-- `JK_RESEED`: the fixed 32-bit constant XORed into `h1` to seed the second pass of `JK64`; no constraint (R8, R118).
Log 4, safe. -/
opaque Config.jkReseed : U32

/-- One bundle of values for the registers that the spec calls unspecified at some point (R32, R36, R37, R170, U3, U6). -/
structure Unspecified where
  c1 : U32
  c2 : U32
  h : U32
  h1l : U32
  hv : U64
  idx : BitVec Config.lenw
  len : BitVec Config.lenw
  opl : HashOp
  pass : Bool
  result : U64
  deriving DecidableEq, Repr, Inhabited

/-- The FREE VALUES: the n-th draw. Nothing constrains them. Logs 7, 8, 10, safe. -/
opaque Config.unspecified : Nat → Unspecified

end Sys2Proof
end

