-- ==== Sys2Proof/Machine/State.lean ====
section
/-! DEFINITION. The state of the block and of what drives it, as plain data, and its value after reset (10_state.md). -/

namespace Sys2Proof.Machine

/-- `STATUS.STATE` (R28). -/
inductive Phase where
  /-- 0: no command since reset. -/
  | idle
  /-- 1: a command is running. -/
  | busy
  /-- 2: `RESULT` holds the result of the last command. -/
  | done
  /-- 3: an exception was raised; sticky until reset. -/
  | error
  deriving DecidableEq, Repr, Inhabited

/-- `STATUS.ECODE` (R28, R150). The value 3 is never produced. -/
inductive ECode where
  /-- 0. -/
  | none
  /-- 1: an illegal word was written to `CMD`. -/
  | reservedCommand
  /-- 2: `CMD` or `ARG` was written while a command ran. -/
  | busyViolation
  deriving DecidableEq, Repr, Inhabited

/-- The host-visible registers, numbered 0 to 3 (R27). -/
inductive HostReg where
  | arg
  | cmd
  | status
  | result
  deriving DecidableEq, Repr

/-- One access of the host (R20, R27, R69): each is one atomic step. -/
inductive Access where
  /-- `WriteARG`. -/
  | writeArg (v : BitVec Config.lenw)
  /-- `WriteCMD`, which performs `Issue`. -/
  | writeCmd (w : U16)
  /-- A write to the read-only `STATUS`: ignored. -/
  | writeStatus (v : U32)
  /-- A write to the read-only `RESULT`: ignored. -/
  | writeResult (v : U64)
  /-- `ReadARG`, `ReadCMD`, `ReadSTATUS`, `ReadRESULT`. -/
  | read (r : HostReg)
  /-- The host stores a byte in the buffer space (R40, R69 step 1). -/
  | writeBuf (i : BitVec Config.lenw) (b : U8)
  deriving DecidableEq, Repr

/-- Who moves: the block (R33, R34), the host (R20), or the external reset (R170). -/
inductive Turn where
  | block
  | host (a : Access)
  /-- The host polls (R69 steps 4 and 5): it reads `STATUS`, again after some block steps while `STATE` is `BUSY`, then
  reads `RESULT` if `STATE` is `DONE`. `gaps` are the numbers of block steps before the second poll, the third, and so
  on; when they run out, one block step lies between two polls. Log 21. -/
  | await (gaps : List Nat)
  | reset
  deriving DecidableEq, Repr

/-- What a register read returns (R27), at the register's own width. -/
inductive ReadValue where
  | arg (v : BitVec Config.lenw)
  | cmd (v : U16)
  | status (v : U32)
  | result (v : U64)
  deriving DecidableEq, Repr

/-- The buffer space `BUF` (R40, R41): (index, byte) cells, indices strictly rising and below `2^LENW`. A cell not
listed was never supplied by the host and does not exist: it reads as no byte (log 14). -/
abbrev Memory := List Host.Cell

/-- The machine. The first fourteen fields and `buf` are the spec's; `agenda`, `readData`, `drawn` are the model's. -/
structure State where
  /-- `ARG`, register 0 (R27). -/
  arg : BitVec Config.lenw
  /-- `CMD`, register 1 (R27). -/
  cmd : U16
  /-- `STATE`, bits [1:0] of `STATUS`, register 2 (R28). -/
  phase : Phase
  /-- `ECODE`, bits [3:2] of `STATUS`, register 2 (R28). -/
  ecode : ECode
  /-- `RESULT`, register 3 (R29). -/
  result : U64
  /-- `C1`, first accumulator of the custom engine (R22). -/
  c1 : U32
  /-- `C2`, second accumulator of the custom engine (R22). -/
  c2 : U32
  /-- `H`, accumulator of the Jenkins engine (R23). -/
  h : U32
  /-- `H1L`, the latched first-pass hash of `JK64` (R23). -/
  h1l : U32
  /-- `HV`, accumulator of the FNV engine (R24). -/
  hv : U64
  /-- `IDX`, index of the next byte to read (R25). -/
  idx : BitVec Config.lenw
  /-- `LEN`, buffer length of the running command (R26). -/
  len : BitVec Config.lenw
  /-- `OPL`, operation of the running command (R26). Log 16. -/
  opl : HashOp
  /-- `PASS`: true in the second pass of `JK64` (R26). -/
  pass : Bool
  /-- `BUF`, the host's buffer space (R40, R41). Log 14. -/
  buf : Memory
  /-- The model's own: the turns still to come, in order. Log 11. -/
  agenda : List Turn
  /-- The model's own: what the host's last register read returned; `none` before the first. Log 13. -/
  readData : Option ReadValue
  /-- The model's own: how many free values have been drawn. Log 8. -/
  drawn : Nat
  deriving DecidableEq, Repr

/-- Why a step stops the machine. -/
inductive Fault where
  /-- Raised by a `ByteStep` whose `BUF` cell below `LEN` was never supplied by the host (R54, U5: the spec gives such a
  launch no meaning). Safe: the model stops where hardware would read something. -/
  | bufferByteMissing
  deriving DecidableEq, Repr

/-- Why a step has no meaning. -/
inductive Refusal where
  /-- An instruction without a meaning; no arm answers it in this model. Safe. -/
  | notModelled (mnemonic : String)
  /-- Raised by a host write that changes a `BUF` byte below `LEN` while a command runs (R176, U4: the spec gives such
  a run no meaning). Safe. -/
  | operandChanged
  deriving DecidableEq, Repr

/-- The outcome of one step of this machine. -/
abbrev Outcome := Host.Outcome State Fault Refusal

/-- The machine right after reset (R37). `STATE`, `ECODE`, `ARG` and `CMD` are 0 as the spec says. `RESULT`, the engine
registers and the sequencer latches are unspecified there: the zeros (and `CK16` in `OPL`) are DESIGN CHOICES, unsafe
(log 6). No buffer was supplied, nothing is on the agenda. -/
def State.reset : State where
  arg := 0
  cmd := 0
  phase := .idle
  ecode := .none
  result := 0
  c1 := 0
  c2 := 0
  h := 0
  h1l := 0
  hv := 0
  idx := 0
  len := 0
  opl := ⟨.ck, .w16⟩
  pass := false
  buf := []
  agenda := []
  readData := none
  drawn := 0

end Sys2Proof.Machine
end

