-- ==== Sys2Proof/Machine/Flags.lean ====
section
/-! DEFINITION. The `STATUS` register as the host reads it (10_state.md rule R28). The block has no arithmetic flags. -/

namespace Sys2Proof.Machine

/-- The code of `STATE` (R28). -/
def Phase.code : Phase → BitVec 2
  | .idle => 0
  | .busy => 1
  | .done => 2
  | .error => 3

/-- The code of `ECODE` (R28). -/
def ECode.code : ECode → BitVec 2
  | .none => 0
  | .reservedCommand => 1
  | .busyViolation => 2

/-- `STATUS`: `STATE` in bits [1:0], `ECODE` in bits [3:2], bits [31:4] read as 0 (R28). -/
def statusWord (s : State) : U32 := (0 : BitVec 28) ++ s.ecode.code ++ s.phase.code

end Sys2Proof.Machine
end

