-- ==== Sys2Proof/Machine/Ops.lean ====
section
/-! DEFINITION. The named operations over the buffer space and the registers: reading and writing `BUF`, taking an
exception (60_exceptions.md rule R154), ending a command, and the guard under which a command word is issued. There is
no return from an exception: `ERROR` is left only by reset (R157), which is `resetBlock` here (R170). -/

namespace Sys2Proof.Machine

/-- `BUF[a]`, or no byte where the host supplied none (R41, R42; log 14). -/
def Memory.read : Memory → Nat → Option U8
  | [], _ => none
  | (k, b) :: m, a => if k = a then some b else Memory.read m a

/-- The host's store of one byte, keeping the indices strictly rising (R40). -/
def Memory.write : Memory → Nat → U8 → Memory
  | [], a, b => [(a, b)]
  | (k, v) :: m, a, b =>
    if a < k then (a, b) :: (k, v) :: m else if a = k then (a, b) :: m else (k, v) :: Memory.write m a b

/-- The canonical form: indices strictly rising and inside the space, `0 .. 2^LENW - 1` (R40). -/
def Memory.wf : Memory → Bool
  | [] => true
  | (k, _) :: m => decide (k < 2 ^ Config.lenw) && m.all (fun c => decide (k < c.1)) && Memory.wf m

/-- `CMD <- w` (R32). -/
def latchCmd (w : U16) (s : State) : State := { s with cmd := w }

/-- `ARG <- v` (R27). -/
def latchArg (v : BitVec Config.lenw) (s : State) : State := { s with arg := v }

/-- The host's byte `b` at index `i` of `BUF` (R40). -/
def storeByte (i : Nat) (b : U8) (s : State) : State := { s with buf := Memory.write s.buf i b }

/-- A register read answers `v` (R27; log 13). -/
def answer (v : ReadValue) (s : State) : State := { s with readData := some v }

/-- A read of `RESULT` answers an unspecified value (U3): a free value (log 10). -/
def answerUnspecified (s : State) : State :=
  { s with readData := some (.result (Config.unspecified s.drawn).result), drawn := s.drawn + 1 }

/-- The turn just taken leaves the agenda (log 11). -/
def withAgenda (rest : List Turn) (s : State) : State := { s with agenda := rest }

/-- `raise X`: taking an exception, one atomic step (R154): `ECODE <- code(X); STATE <- ERROR`. Nothing else is saved. -/
def raise (code : ECode) (s : State) : State := { s with ecode := code, phase := .error }

/-- `RESULT <- v; STATE <- DONE`: a command ends (R32, R34). -/
def complete (v : U64) (s : State) : State := { s with result := v, phase := .done }

/-- The sequencer's part of `Issue` of a present operand (R32): `LEN`, `OPL`, `IDX`, `PASS` are written and the command
runs. From here until the next `DONE` the value of `RESULT` is unspecified (R32): a free value (log 8). -/
def startRun (op : HashOp) (s : State) : State :=
  { s with
    len := s.arg, opl := op, idx := 0, pass := false
    result := (Config.unspecified s.drawn).result, drawn := s.drawn + 1, phase := .busy }

/-- `Issue` of a present operand (R32): the latches are written and the engine is seeded. -/
def launch (op : HashOp) (seed : State → State) (s : State) : State := seed (startRun op s)

/-- A write of the legal word `word` to `CMD`, by `STATE` (R27): in `IDLE` and `DONE` the word is latched and the
command takes effect (R32); in `BUSY` the write is discarded and raises `BusyViolation` (R152); in `ERROR` it is
ignored (R157). -/
def issue (word : U16) (effect : State → State) (s : State) : Outcome :=
  match s.phase with
  | .idle => .next (effect (latchCmd word s))
  | .done => .next (effect (latchCmd word s))
  | .busy => .next (raise .busyViolation s)
  | .error => .next s

/-- A write of a reserved word to `CMD` (R66, R151): in `IDLE` and `DONE` the word is copied into `CMD` and
`ReservedCommand` is raised; otherwise as any write (R155: in `BUSY` the word is not decoded). -/
def issueReserved (word : U16) (s : State) : Outcome := issue word (raise .reservedCommand) s

/-- Reset (R170, R37): `STATE`, `ECODE`, `ARG`, `CMD` take their reset values; `RESULT`, the engine registers and the
latches become unspecified: free values (log 7); the ROM and `BUF` are untouched. -/
def resetBlock (s : State) : State :=
  let u := Config.unspecified s.drawn
  { s with
    arg := 0, cmd := 0, phase := .idle, ecode := .none
    result := u.result, c1 := u.c1, c2 := u.c2, h := u.h, h1l := u.h1l, hv := u.hv
    idx := u.idx, len := u.len, opl := u.opl, pass := u.pass, drawn := s.drawn + 1 }

end Sys2Proof.Machine
end

