-- ==== Sys2Proof/Machine/Operands.lean ====
section
/-! DEFINITION. How operands reach the block and how registers reach the host: the byte at `IDX` (20_memory.md R42), the
32-bit values of `IDX` and `LEN` (10_state.md R25, R33), and register reads (R27). -/

namespace Sys2Proof.Machine

/-- `MemRead(IDX, 1)`: the byte `BUF[IDX]` (R42). -/
def currentByte (s : State) : Option U8 := Memory.read s.buf s.idx.toNat

/-- The 32-bit value of `IDX`: truncated or zero-extended from `LENW` bits (R25). -/
def idx32 (s : State) : U32 := s.idx.setWidth 32

/-- The 32-bit value of `LEN` (R33, R111). -/
def len32 (s : State) : U32 := s.len.setWidth 32

/-- The host reads a register (R27): no side effect on the block. `RESULT` reads as the last result in `DONE`; in any
other state the value is unspecified (U3): a free value (log 10). What the read returns stands in `readData` (log 13). -/
def readReg (r : HostReg) (s : State) : State :=
  match r with
  | .arg => answer (.arg s.arg) s
  | .cmd => answer (.cmd s.cmd) s
  | .status => answer (.status (statusWord s)) s
  | .result => if s.phase = .done then answer (.result s.result) s else answerUnspecified s

end Sys2Proof.Machine
end

