-- ==== Sys2Proof/WellFormed.lean ====
section
/-! DEFINITION. Which command words are legal (30_encoding.md rule R64). A term of `Instr` cannot be out of range (its
operands are an 8-bit index and a presence), so the checks are on the fields of a word. -/

namespace Sys2Proof

/-- R64, first clause of every form: `w[7:5] = 0`. -/
def Fields.rsvZero (f : Fields) : Bool := f.rsv == 0

/-- R64, a hash command: `w[1:0] != 3` and `w[3:2] != 0` and `w[15:8] = 0`; `w[4]` is free. -/
def Fields.isHash (f : Fields) : Bool := f.asel != 3 && f.wsel != 0 && f.idx8 == 0

/-- R64, `TLKUP`: `w[1:0] = 3` and `w[3:2] = 0` and `w[4] = 0`; `w[15:8]` is free. -/
def Fields.isTable (f : Fields) : Bool := f.asel == 3 && f.wsel == 0 && f.abs == 0

/-- `legal(w)` of R64. Every other word is reserved. -/
def Fields.legal (f : Fields) : Bool := f.rsvZero && (f.isHash || f.isTable)

end Sys2Proof
end

