-- ==== Sys2Proof/Decode.lean ====
section
/-! DEFINITION. The decoder and the encoder of command words (30_encoding.md rules R61 to R64). A command is one 16-bit
word written to `CMD` in one access (R60): there is no byte stream and no fetch. The decoder is total on all 65536
words and refuses a reserved word by the name of the clause of R64 it breaks. -/

namespace Sys2Proof

/-- Why a word is reserved (R64, U7). -/
inductive DecodeError where
  /-- `RSV != 0`. -/
  | reservedBitsSet
  /-- `ASEL = 3` (table lookup) with `WSEL != 0`. -/
  | tableWidthNotByte
  /-- `ASEL = 3` (table lookup) with `ABS = 1`. -/
  | tableOperandAbsent
  /-- A hash algorithm with `WSEL = 0`. -/
  | hashWidthIsByte
  /-- A hash command with `IDX8 != 0`. -/
  | hashIndexNotZero
  deriving DecidableEq, Repr

/-- The fields of a word (R61). -/
def Fields.ofWord (w : U16) : Fields where
  asel := w.extractLsb' 0 2
  wsel := w.extractLsb' 2 2
  abs := w.extractLsb' 4 1
  rsv := w.extractLsb' 5 3
  idx8 := w.extractLsb' 8 8

/-- The word with these fields (R61). -/
def Fields.toWord (f : Fields) : U16 := f.idx8 ++ f.rsv ++ f.abs ++ f.wsel ++ f.asel

/-- `ASEL` of an algorithm: 0 `CK`, 1 `JK`, 2 `FN` (R61). -/
def Alg.asel : Alg → BitVec 2
  | .ck => 0
  | .jk => 1
  | .fn => 2

/-- The algorithm `ASEL` selects; `none` for 3, the table lookup (R61). -/
def Alg.ofAsel (a : BitVec 2) : Option Alg :=
  if a = 0 then some .ck else if a = 1 then some .jk else if a = 2 then some .fn else none

/-- `WSEL` of a width: log2 of its byte count (R61). -/
def Width.wsel : Width → BitVec 2
  | .w16 => 1
  | .w32 => 2
  | .w64 => 3

/-- The width `WSEL` selects; `none` for 0, one byte, which no hash command has (R61). -/
def Width.ofWsel (v : BitVec 2) : Option Width :=
  if v = 1 then some .w16 else if v = 2 then some .w32 else if v = 3 then some .w64 else none

/-- `ABS` of a presence: 0 present, 1 absent (R61). -/
def Presence.bit : Presence → BitVec 1
  | .present => 0
  | .absent => 1

/-- The presence `ABS` stands for (R61). -/
def Presence.ofBit (b : BitVec 1) : Presence := if b = 0 then .present else .absent

/-- The command of an algorithm, a width and a presence: the mnemonic selected by `(w[1:0], w[3:2])` in R63. -/
def Instr.ofHash (op : HashOp) (p : Presence) : Instr :=
  match op.alg, op.width with
  | .ck, .w16 => .ck16 p
  | .ck, .w32 => .ck32 p
  | .ck, .w64 => .ck64 p
  | .jk, .w16 => .jk16 p
  | .jk, .w32 => .jk32 p
  | .jk, .w64 => .jk64 p
  | .fn, .w16 => .fn16 p
  | .fn, .w32 => .fn32 p
  | .fn, .w64 => .fn64 p

/-- `decode(w)` of R62 on the fields of a word, refusing reserved words by name (R64). -/
def decodeFields (f : Fields) : Except DecodeError Instr :=
  if f.rsv ≠ 0 then .error .reservedBitsSet
  else
    match Alg.ofAsel f.asel with
    | none =>
      if f.wsel ≠ 0 then .error .tableWidthNotByte
      else if f.abs ≠ 0 then .error .tableOperandAbsent
      else .ok (.tlkup f.idx8)
    | some a =>
      match Width.ofWsel f.wsel with
      | none => .error .hashWidthIsByte
      | some w => if f.idx8 ≠ 0 then .error .hashIndexNotZero else .ok (Instr.ofHash ⟨a, w⟩ (Presence.ofBit f.abs))

/-- The decoder: any 16-bit word to its instruction or the reason it is reserved (R62, R64). -/
def decodeWord (w : U16) : Except DecodeError Instr := decodeFields (Fields.ofWord w)

/-- The four bits `{WSEL, ASEL}` of an operation, the pattern `OPL` holds (10_state.md rule R26). -/
def HashOp.bits (op : HashOp) : BitVec 4 := op.width.wsel ++ op.alg.asel

/-- The fields of a hash command: `RSV = 0`, `IDX8 = 0` (R61, R63). -/
def HashOp.fields (op : HashOp) (p : Presence) : Fields := ⟨op.alg.asel, op.width.wsel, p.bit, 0, 0⟩

/-- The fields of each command's word (R61, R63). -/
def Instr.fields : Instr → Fields
  | .tlkup i => ⟨3, 0, 0, 0, i⟩
  | .ck16 p => HashOp.fields ⟨.ck, .w16⟩ p
  | .ck32 p => HashOp.fields ⟨.ck, .w32⟩ p
  | .ck64 p => HashOp.fields ⟨.ck, .w64⟩ p
  | .jk16 p => HashOp.fields ⟨.jk, .w16⟩ p
  | .jk32 p => HashOp.fields ⟨.jk, .w32⟩ p
  | .jk64 p => HashOp.fields ⟨.jk, .w64⟩ p
  | .fn16 p => HashOp.fields ⟨.fn, .w16⟩ p
  | .fn32 p => HashOp.fields ⟨.fn, .w32⟩ p
  | .fn64 p => HashOp.fields ⟨.fn, .w64⟩ p

/-- The encoder: the word of an instruction (R63). -/
def encode (i : Instr) : U16 := i.fields.toWord

/-- The word that the opcode table's bits `w` of a row of `nbits` bits stand for: bits at and above `nbits` are 0, and
a number that does not fit the one 16-bit format is no word (R60). Log 20. -/
def tableWord (nbits w : Nat) : Option U16 :=
  if w % 2 ^ nbits < 2 ^ 16 then some (BitVec.ofNat 16 (w % 2 ^ nbits)) else none

/-- The instruction the decoder reads from an instruction whose bits are `w`. Log 20. -/
def decodeTableWord (nbits w : Nat) : Option Instr :=
  match tableWord nbits w with
  | none => none
  | some word =>
    match decodeWord word with
    | .ok i => some i
    | .error _ => none

end Sys2Proof
end

