-- ==== Sys2Proof/Machine/Folder.lean ====
section
/-! DEFINITION. The result folder (44_folder.md): XOR folds, absent constants, the signed presentation of a result, and
the issue of a hash command, which chooses between the absent constant and a run of the engine. -/

namespace Sys2Proof.Machine

/-- `fold64to32(h) = h[63:32] ^ h[31:0]` (R141). -/
def fold64to32 (x : U64) : U32 := x.extractLsb' 32 32 ^^^ x.extractLsb' 0 32

/-- `fold64to16(h) = h[63:48] ^ h[47:32] ^ h[31:16] ^ h[15:0]` (R142). -/
def fold64to16 (x : U64) : U16 :=
  x.extractLsb' 48 16 ^^^ x.extractLsb' 32 16 ^^^ x.extractLsb' 16 16 ^^^ x.extractLsb' 0 16

/-- `fold32to16(h) = h[31:16] ^ h[15:0]` (R143). -/
def fold32to16 (x : U32) : U16 := x.extractLsb' 16 16 ^^^ x.extractLsb' 0 16

/-- `fold(W, x)` of a 64-bit wide value (R145). -/
def fold (w : Width) (x : U64) : BitVec w.bits :=
  match w with
  | .w16 => fold64to16 x
  | .w32 => fold64to32 x
  | .w64 => x

/-- `JK_NULL16 = 15401` (R8, R144). -/
def jkNull16 : U16 := 15401

/-- `absent_const(alg, W)` (R144): 0 for the custom and FNV engines, the Jenkins constant of the width. -/
def absentConst (op : HashOp) : BitVec op.width.bits :=
  match op with
  | ⟨.ck, _⟩ => 0
  | ⟨.fn, _⟩ => 0
  | ⟨.jk, .w16⟩ => jkNull16
  | ⟨.jk, .w32⟩ => Config.jkNull32
  | ⟨.jk, .w64⟩ => Config.jkNull64

/-- What `RESULT` holds for the W-bit pattern `res`: `sext_64(res)` (R29, D13). -/
def presented {w : Nat} (res : BitVec w) : U64 := res.signExtend 64

/-- The output integer of a W-bit pattern: `signed_W(res)`, its two's-complement reading (R146, D13). -/
def signedResult {w : Nat} (res : BitVec w) : Int := res.toInt

/-- `Issue` of a hash command (R32): an absent operand gives the fixed constant at once and starts no engine (R144,
R153); a present one starts the engine `seed` seeds. `word` is the command's own word. -/
def issueHash (op : HashOp) (seed : State → State) (p : Presence) (word : U16) (s : State) : Outcome :=
  match p with
  | .absent => issue word (complete (presented (absentConst op))) s
  | .present => issue word (launch op seed) s

end Sys2Proof.Machine
end

