-- ==== Sys2Proof/Machine/Rom.lean ====
section
/-! DEFINITION. The table ROM and `TLKUP` (40_rom.md). The contents are `Config.tRom`; no step writes them (R30, R85). -/

namespace Sys2Proof.Machine

/-- `T[i]` (R43): an 8-bit index, so no index is out of range. -/
def tableRead (i : U8) : U8 := Config.tRom i

/-- `T[trunc_8(x)]`: the lookup of an internal caller, which masks its index with `0xFF` first (R83). -/
def tableRead32 (x : U32) : U8 := tableRead (x.setWidth 8)

/-- `TLKUP i` (R82): `RESULT <- zext_64(T[i]); STATE <- DONE`, within `Issue`. -/
def execTlkup (i : U8) (s : State) : Outcome := issue (encode (.tlkup i)) (complete ((tableRead i).setWidth 64)) s

end Sys2Proof.Machine
end

