-- ==== Sys2Proof/Machine/Custom.lean ====
section
/-! DEFINITION. The custom checksum engine and `CK16`, `CK32`, `CK64` (41_custom.md). The pure functions take the mixing
function as an argument; the block uses `mix`, built from the open sub-hashes of Config (log 3). -/

namespace Sys2Proof.Machine

/-- `CK_SEED1`, the initial `C1` (R90). -/
def ckSeed1 : U32 := 0xfab1c0e1

/-- `CK_SEED2`, the initial `C2` (R90). -/
def ckSeed2 : U32 := 0xca140be5

/-- `CK_MOD`, the modulus of the third sub-hash (R93). -/
def ckMod : U32 := 104851

/-- `p(h, c, n)` of R93: the sum, the difference and both products wrap at 32 bits, then the remainder is taken. -/
def mixP (h c n : U32) : U32 := h * (c + n) * (c - n) % ckMod

/-- The shape of `mix` (R92): four sub-hashes rotated left by 24, 16, 8, 0 and XORed. -/
def mixShape (s1 s2 s3 s4 : U32) : U32 :=
  s1.rotateLeft 24 ^^^ s2.rotateLeft 16 ^^^ s3.rotateLeft 8 ^^^ s4.rotateLeft 0

/-- The third sub-hash (R93): it computes `p`, then looks up the table. -/
def subHash3 (h c n : U32) : U32 :=
  Config.subHash3Value (tableRead (Config.subHash3Index (mixP h c n) h c n)) (mixP h c n) h c n

/-- The open parameter `MIX` (R92). -/
def mix (h c n : U32) : U32 :=
  mixShape (Config.subHash1 tableRead h c n) (Config.subHash2 tableRead h c n) (subHash3 h c n)
    (Config.subHash4 tableRead h c n)

/-- The new `C1` of R94: `rotl32(c1, 7) ^ MIX(c1 ^ c2, b + i, i)`. -/
def ckNext1 (mixFn : U32 → U32 → U32 → U32) (c1 c2 : U32) (b : U8) (i32 : U32) : U32 :=
  c1.rotateLeft 7 ^^^ mixFn (c1 ^^^ c2) (b.setWidth 32 + i32) i32

/-- The new `C2` of R94, from the ALREADY UPDATED `C1` (`c1'`) and the old `c2`:
`rotl32(c2, 9) ^ MIX(c1' + c2, b ^ i, b)`. -/
def ckNext2 (mixFn : U32 → U32 → U32 → U32) (c1' c2 : U32) (b : U8) (i32 : U32) : U32 :=
  c2.rotateLeft 9 ^^^ mixFn (c1' + c2) (b.setWidth 32 ^^^ i32) (b.setWidth 32)

/-- `ck_byte(c1, c2, b, i32)` (R94). -/
def ckByte (mixFn : U32 → U32 → U32 → U32) (c : U32 × U32) (b : U8) (i32 : U32) : U32 × U32 :=
  (ckNext1 mixFn c.1 c.2 b i32, ckNext2 mixFn (ckNext1 mixFn c.1 c.2 b i32) c.2 b i32)

/-- The loop of R95 from position `i` on, the position entering modulo 2^32 (R91, D7). -/
def ckLoop (mixFn : U32 → U32 → U32 → U32) : Nat → U32 × U32 → List U8 → U32 × U32
  | _, c, [] => c
  | i, c, b :: bs => ckLoop mixFn (i + 1) (ckByte mixFn c b (BitVec.ofNat 32 i)) bs

/-- The wide value `{C1, C2}` (R44, R95). -/
def ckPair (c : U32 × U32) : U64 := c.1 ++ c.2

/-- `ck_wide(buf)` (R95). -/
def ckWide (mixFn : U32 → U32 → U32 → U32) (bs : List U8) : U64 := ckPair (ckLoop mixFn 0 (ckSeed1, ckSeed2) bs)

/-- `Issue` seeds the custom engine (R22, R32). -/
def seedCk (s : State) : State := { s with c1 := ckSeed1, c2 := ckSeed2 }

/-- `ByteStep` of the custom engine on the byte `b` (R33). -/
def absorbCk (b : U8) (s : State) : State :=
  { s with c1 := (ckByte mix (s.c1, s.c2) b (idx32 s)).1, c2 := (ckByte mix (s.c1, s.c2) b (idx32 s)).2 }

/-- After `DONE` the accumulators hold unspecified values (R36): free values (log 8). -/
def releaseCk (s : State) : State :=
  { s with c1 := (Config.unspecified s.drawn).c1, c2 := (Config.unspecified s.drawn).c2, drawn := s.drawn + 1 }

/-- `Finish` of the custom engine (R34): `res <- fold(W, {C1, C2})`. -/
def finishCk (w : Width) (s : State) : State := releaseCk (complete (presented (fold w (ckPair (s.c1, s.c2)))) s)

/-- `CK16` (R96). -/
def execCk16 (p : Presence) (s : State) : Outcome := issueHash ⟨.ck, .w16⟩ seedCk p (encode (.ck16 p)) s

/-- `CK32` (R97). -/
def execCk32 (p : Presence) (s : State) : Outcome := issueHash ⟨.ck, .w32⟩ seedCk p (encode (.ck32 p)) s

/-- `CK64` (R98). -/
def execCk64 (p : Presence) (s : State) : Outcome := issueHash ⟨.ck, .w64⟩ seedCk p (encode (.ck64 p)) s

end Sys2Proof.Machine
end

