-- ==== Sys2Proof/Machine/Fnv.lean ====
section
/-! DEFINITION. The FNV engine and `FN16`, `FN32`, `FN64` (43_fnv.md): the modified FNV-1a hash. The two constants are
named by the source and numbered by the spec from general knowledge (R130, G1). PRESUMED, unsafe: log 5. -/

namespace Sys2Proof.Machine

/-- `FNV_BASIS` (R130). PRESUMED: log 5. -/
def fnvBasis : U64 := 0xcbf29ce484222325

/-- `FNV_PRIME` (R130). PRESUMED: log 5. -/
def fnvPrime : U64 := 0x00000100000001b3

/-- The addend of R131: `(b<<11) | (b<<31) | (b<<53)`, the byte widened to 64 bits before it is shifted (D28). -/
def fnvAddend (b : U8) : U64 :=
  b.setWidth 64 <<< 11 ||| b.setWidth 64 <<< 31 ||| b.setWidth 64 <<< 53

/-- The XOR mask of R131: `b | (b<<23) | (b<<43)`. -/
def fnvMask (b : U8) : U64 :=
  b.setWidth 64 ||| b.setWidth 64 <<< 23 ||| b.setWidth 64 <<< 43

/-- `fnv_byte(hval, b)` (R131): add, then XOR, then multiply. (The prime stands first so that the kernel, which
multiplies by recursion on the second factor, never unfolds it on a symbolic `hval`; the product is the same.) -/
def fnvByte (hval : U64) (b : U8) : U64 := fnvPrime * ((hval + fnvAddend b) ^^^ fnvMask b)

/-- `fnv_wide(buf)` (R132). -/
def fnvWide (bs : List U8) : U64 := bs.foldl fnvByte fnvBasis

/-- `Issue` seeds the FNV engine (R24, R32). -/
def seedFn (s : State) : State := { s with hv := fnvBasis }

/-- `ByteStep` of the FNV engine on the byte `b` (R33). -/
def absorbFn (b : U8) (s : State) : State := { s with hv := fnvByte s.hv b }

/-- After `DONE` the accumulator holds an unspecified value (R36): a free value (log 8). -/
def releaseFn (s : State) : State := { s with hv := (Config.unspecified s.drawn).hv, drawn := s.drawn + 1 }

/-- `Finish` of the FNV engine (R34): `res <- fold(W, HV)`. -/
def finishFn (w : Width) (s : State) : State := releaseFn (complete (presented (fold w s.hv)) s)

/-- `FN16` (R133). -/
def execFn16 (p : Presence) (s : State) : Outcome := issueHash ⟨.fn, .w16⟩ seedFn p (encode (.fn16 p)) s

/-- `FN32` (R134). -/
def execFn32 (p : Presence) (s : State) : Outcome := issueHash ⟨.fn, .w32⟩ seedFn p (encode (.fn32 p)) s

/-- `FN64` (R135). -/
def execFn64 (p : Presence) (s : State) : Outcome := issueHash ⟨.fn, .w64⟩ seedFn p (encode (.fn64 p)) s

end Sys2Proof.Machine
end

