-- ==== Sys2Proof/Machine/Jenkins.lean ====
section
/-! DEFINITION. The Jenkins engine and `JK16`, `JK32`, `JK64` (42_jenkins.md): the modified one-at-a-time hash, in which
the buffer length enters every byte step and the final step (R110). -/

namespace Sys2Proof.Machine

/-- First half of `jk_byte`: `h += b XOR len` (R111); the XOR is done first. -/
def jkAdd (h : U32) (b : U8) (len : U32) : U32 := h + (b.setWidth 32 ^^^ len)

/-- The rest of `jk_byte`: `h += h<<10; h ^= h>>6` (R111). -/
def jkStir (h : U32) : U32 := (h + h <<< 10) ^^^ (h + h <<< 10) >>> 6

/-- `jk_byte(h, b, len32)` (R111). -/
def jkByte (len : U32) (h : U32) (b : U8) : U32 := jkStir (jkAdd h b len)

/-- `jk_final(h, len32)` (R112): `h += h<<3; h ^= (h>>11) + len; h += h<<15`. -/
def jkFinal (h : U32) (len : U32) : U32 :=
  let h1 := h + h <<< 3
  let h2 := h1 ^^^ (h1 >>> 11 + len)
  h2 + h2 <<< 15

/-- The length of a buffer as it enters 32-bit arithmetic: modulo 2^32 (R113, D7). -/
def length32 (bs : List U8) : U32 := BitVec.ofNat 32 bs.length

/-- `jk32(buf, seed)` (R113). -/
def jk32 (bs : List U8) (seed : U32) : U32 := jkFinal (bs.foldl (jkByte (length32 bs)) seed) (length32 bs)

/-- The 64-bit Jenkins value with the reseed constant `reseed` (R116): `{h1, h2}`, `h2` forced to 0 for length 0. -/
def jk64 (reseed : U32) (bs : List U8) : U64 :=
  jk32 bs 0 ++ (if bs.length = 0 then (0 : U32) else jk32 bs (jk32 bs 0 ^^^ reseed))

/-- `Issue` seeds the Jenkins engine with 0 (R23, R32). -/
def seedJk (s : State) : State := { s with h := 0 }

/-- `ByteStep` of the Jenkins engine on the byte `b` (R33). -/
def absorbJk (b : U8) (s : State) : State := { s with h := jkByte (len32 s) s.h b }

/-- After `DONE` the accumulators hold unspecified values (R36): free values (log 8). -/
def releaseJk (s : State) : State :=
  { s with h := (Config.unspecified s.drawn).h, h1l := (Config.unspecified s.drawn).h1l, drawn := s.drawn + 1 }

/-- The Jenkins engine ends a command with the pattern `res` (R34). -/
def completeJk {w : Nat} (res : BitVec w) (s : State) : State := releaseJk (complete (presented res) s)

/-- The pass change of `JK64` (R34, R118): `H1L <- h1; H <- h1 ^ JK_RESEED; IDX <- 0; PASS <- 1`; `STATE` stays. -/
def startSecondPass (s : State) : State :=
  { s with h1l := jkFinal s.h (len32 s), h := jkFinal s.h (len32 s) ^^^ Config.jkReseed, idx := 0, pass := true }

/-- `Finish` of `JK64` (R34). The test `LEN = 0` is on the full length. -/
def finishJk64 (s : State) : State :=
  if s.pass then completeJk (s.h1l ++ jkFinal s.h (len32 s)) s
  else if s.len = 0 then completeJk (jkFinal s.h (len32 s) ++ (0 : U32)) s
  else startSecondPass s

/-- `Finish` of the Jenkins engine (R34). -/
def finishJk (w : Width) (s : State) : State :=
  match w with
  | .w16 => completeJk (fold32to16 (jkFinal s.h (len32 s))) s
  | .w32 => completeJk (jkFinal s.h (len32 s)) s
  | .w64 => finishJk64 s

/-- `JK16` (R114). -/
def execJk16 (p : Presence) (s : State) : Outcome := issueHash ⟨.jk, .w16⟩ seedJk p (encode (.jk16 p)) s

/-- `JK32` (R115). -/
def execJk32 (p : Presence) (s : State) : Outcome := issueHash ⟨.jk, .w32⟩ seedJk p (encode (.jk32 p)) s

/-- `JK64` (R116). -/
def execJk64 (p : Presence) (s : State) : Outcome := issueHash ⟨.jk, .w64⟩ seedJk p (encode (.jk64 p)) s

end Sys2Proof.Machine
end

