-- ==== Sys2Proof/Machine/Dispatch.lean ====
section
/-! DEFINITION. `exec`: the meaning of each command, which is the host's write of its word to `CMD` (10_state.md rules
R27, R32; log 18). One arm per constructor of Instr. -/

namespace Sys2Proof.Machine

def exec (i : Instr) (s : State) : Host.Outcome State Fault Refusal :=
  match i with
  | .tlkup i8 => Sys2Proof.Machine.execTlkup i8 s
  | .ck16 p => Sys2Proof.Machine.execCk16 p s
  | .ck32 p => Sys2Proof.Machine.execCk32 p s
  | .ck64 p => Sys2Proof.Machine.execCk64 p s
  | .jk16 p => Sys2Proof.Machine.execJk16 p s
  | .jk32 p => Sys2Proof.Machine.execJk32 p s
  | .jk64 p => Sys2Proof.Machine.execJk64 p s
  | .fn16 p => Sys2Proof.Machine.execFn16 p s
  | .fn32 p => Sys2Proof.Machine.execFn32 p s
  | .fn64 p => Sys2Proof.Machine.execFn64 p s

end Sys2Proof.Machine
end

