-- ==== Sys2Proof/Machine/Sequencer.lean ====
section
/-! DEFINITION. The block's own steps, `ByteStep` and `Finish` (10_state.md rules R33, R34), the guard that enables
exactly one of them (R31), the pure function each hash operation computes (R13), and the step counts (R179). -/

namespace Sys2Proof.Machine

/-- The engine named by `OPL` takes in the byte `b` (R33). -/
def absorb (b : U8) (s : State) : State :=
  match s.opl.alg with
  | .ck => absorbCk b s
  | .jk => absorbJk b s
  | .fn => absorbFn b s

/-- `IDX <- IDX + 1` (R33). -/
def advance (s : State) : State := { s with idx := s.idx + 1 }

/-- `ByteStep` (R33). A cell the host never supplied stops the machine (R54, U5; log 14). -/
def byteStep (s : State) : Outcome :=
  match currentByte s with
  | some b => .next (advance (absorb b s))
  | none => .fault .bufferByteMissing

/-- `Finish` (R34). -/
def finish (s : State) : State :=
  match s.opl.alg with
  | .ck => finishCk s.opl.width s
  | .jk => finishJk s.opl.width s
  | .fn => finishFn s.opl.width s

/-- The block moves (R31): in `BUSY`, `ByteStep` when `IDX < LEN` and `Finish` when `IDX = LEN`. No block step is
enabled otherwise and nothing changes (log 12; `IDX > LEN` is never reached, log 17). -/
def blockTurn (s : State) : Outcome :=
  match s.phase with
  | .busy => if s.idx < s.len then byteStep s else if s.idx = s.len then .next (finish s) else .next s
  | _ => .next s

/-- `hash(alg, W, buf)`: the pure function of each hash command on a present buffer (R13, R96 to R98, R114 to R116,
R133 to R135). -/
def hashResult (op : HashOp) (bs : List U8) : BitVec op.width.bits :=
  match op with
  | ⟨.ck, w⟩ => fold w (ckWide mix bs)
  | ⟨.fn, w⟩ => fold w (fnvWide bs)
  | ⟨.jk, .w16⟩ => fold32to16 (jk32 bs 0)
  | ⟨.jk, .w32⟩ => jk32 bs 0
  | ⟨.jk, .w64⟩ => jk64 Config.jkReseed bs

/-- How many block steps a hash command on a present buffer of length `n` takes (R179). -/
def blockSteps (op : HashOp) (n : Nat) : Nat :=
  if op = ⟨.jk, .w64⟩ ∧ n ≠ 0 then 2 * n + 2 else n + 1

end Sys2Proof.Machine
end

