-- ==== Sys2Proof/Machine/HostPort.lean ====
section
/-! DEFINITION. The host's accesses (10_state.md rules R20, R27; 20_memory.md R40), the turn of each agent, and the
assembler line as the host sequence it stands for (30_encoding.md rules R68, R69). -/

namespace Sys2Proof.Machine

/-- `WriteARG(v)` (R27): legal in `IDLE` and `DONE`; raises `BusyViolation` in `BUSY` (R152); ignored in `ERROR` (R157). -/
def writeArg (v : BitVec Config.lenw) (s : State) : Outcome :=
  match s.phase with
  | .idle => .next (latchArg v s)
  | .done => .next (latchArg v s)
  | .busy => .next (raise .busyViolation s)
  | .error => .next s

/-- `WriteCMD(w)` (R32): a legal word runs its command, a reserved word goes to `issueReserved`. -/
def writeCmd (w : U16) (s : State) : Outcome :=
  match decodeWord w with
  | .ok i => exec i s
  | .error _ => issueReserved w s

/-- The host stores a byte in `BUF`. While a command runs it must not change a byte below `LEN` (R176): such a store is
given no meaning (U4; log 15). Any other store is the host's business (R40). -/
def writeBuf (i : BitVec Config.lenw) (b : U8) (s : State) : Outcome :=
  if s.phase = .busy ∧ i < s.len ∧ Memory.read s.buf i.toNat ≠ some b then .refused .operandChanged
  else .next (storeByte i.toNat b s)

/-- One host access (R27). Writes to `STATUS` and `RESULT` are ignored. -/
def hostAccess (a : Access) (s : State) : Outcome :=
  match a with
  | .writeArg v => writeArg v s
  | .writeCmd w => writeCmd w s
  | .writeStatus _ => .next s
  | .writeResult _ => .next s
  | .read r => .next (readReg r s)
  | .writeBuf i b => writeBuf i b s

/-- What the host does once it has read `STATE` as `p` while polling (R69 steps 4 and 5): in `BUSY` it polls again, the
block taking its steps meanwhile; in `DONE` it reads `RESULT`; otherwise (`ERROR`) it reads nothing more. -/
def afterPoll (gaps : List Nat) (p : Phase) : List Turn :=
  match p with
  | .busy => List.replicate (gaps.headD 1) .block ++ [.await gaps.tail]
  | .done => [.host (.read .result)]
  | .idle => []
  | .error => []

/-- The host polls: `ReadSTATUS`, and what follows from it comes next (R69 steps 4 and 5). -/
def poll (gaps : List Nat) (s : State) : State :=
  withAgenda (afterPoll gaps s.phase ++ s.agenda) (readReg .status s)

/-- One turn of an agent: one atomic step (R20, R155, R170). -/
def takeTurn (t : Turn) (s : State) : Outcome :=
  match t with
  | .block => blockTurn s
  | .host a => hostAccess a s
  | .await gaps => .next (poll gaps s)
  | .reset => .next (resetBlock s)

/-- The operand of a hash line (R68): `NULL`, or a buffer given by its bytes (the forms `"text"` and `x"..."` both
stand for a list of bytes). -/
inductive LineOperand where
  | null
  | buffer (bytes : List U8)
  deriving DecidableEq, Repr

/-- One assembler line (R68): `MNEMONIC operand`. -/
inductive Line where
  | tlkup (i : U8)
  | hash (op : HashOp) (o : LineOperand)
  deriving DecidableEq, Repr

/-- The command of a line (R68). -/
def Line.instr : Line → Instr
  | .tlkup i => .tlkup i
  | .hash op .null => Instr.ofHash op .absent
  | .hash op (.buffer _) => Instr.ofHash op .present

/-- R69 step 1: the host stores of a buffer, from index `i` up. -/
def fillTurns : Nat → List U8 → List Turn
  | _, [] => []
  | i, b :: bs => .host (.writeBuf (BitVec.ofNat Config.lenw i) b) :: fillTurns (i + 1) bs

/-- R69 steps 1 and 2: for a present operand, fill `BUF` and write the length to `ARG`. -/
def Line.setupTurns : Line → List Turn
  | .tlkup _ => []
  | .hash _ .null => []
  | .hash _ (.buffer bs) => fillTurns 0 bs ++ [.host (.writeArg (BitVec.ofNat Config.lenw bs.length))]

/-- The host sequence a line stands for (R69): fill `BUF`, `WriteARG`, `WriteCMD`, then poll and read, with any number of
block steps between two polls (`gaps`). -/
def Line.turns (gaps : List Nat) (l : Line) : List Turn :=
  l.setupTurns ++ [.host (.writeCmd (encode l.instr)), .await gaps]

/-- The bytes of the line's buffer (R68); none where the operand is no buffer. -/
def Line.bytes : Line → List U8
  | .tlkup _ => []
  | .hash _ .null => []
  | .hash _ (.buffer bs) => bs

/-- Whether the length of the line's buffer can be written to `ARG` (R65). -/
def Line.fits : Line → Bool
  | .tlkup _ => true
  | .hash _ .null => true
  | .hash _ (.buffer bs) => decide (bs.length < 2 ^ Config.lenw)

/-- The value the host reads at the end of a line (R69 step 5): the table byte zero-extended (R82), the absent constant
(R144) or the hash of the bytes (R13), sign-extended (R29). -/
def Line.result : Line → U64
  | .tlkup i => (tableRead i).setWidth 64
  | .hash op .null => presented (absentConst op)
  | .hash op (.buffer bs) => presented (hashResult op bs)

end Sys2Proof.Machine
end

