-- ==== Sys2Proof/Machine/Step.lean ====
section
/-! DEFINITION. One step of the machine: the next turn of the agenda, or, when the agenda is empty, a turn of the block
(70_reset_and_hazards.md rule R179; logs 11, 12). The block fetches no instruction: a command runs when the host writes
its word to `CMD` (10_state.md rule R25). -/

namespace Sys2Proof.Machine

/-- One step (R20, R155). -/
def step (s : State) : Host.Outcome State Fault Refusal :=
  match s.agenda with
  | [] => takeTurn .block s
  | t :: rest => takeTurn t (withAgenda rest s)

/-- `s` with the host's write of the opcode-table word `w` to `CMD` as its very next turn: a command word is never
fetched, the host presents it (R52, R60; log 20). A number that is no 16-bit word changes nothing. -/
def State.withFetchWord (s : State) (nbits w : Nat) : State :=
  match tableWord nbits w with
  | some word => { s with agenda := .host (.writeCmd word) :: s.agenda }
  | none => s

end Sys2Proof.Machine
end

