-- ==== Sys2Proof/Safety.lean ====
section
/-! DEFINITION. What counts as a safe run, in the terms the statements use: the invariant of the machine, when the block
accepts a command, what the host guarantees about the buffer, and what it means that a command runs to its result. -/

namespace Sys2Proof.Machine

/-- The block accepts a command (R175): `STATE` is `IDLE` or `DONE`. -/
def Ready (s : State) : Prop := s.phase = .idle ∨ s.phase = .done

/-- The invariant of the machine: `BUF` is in canonical form; `ECODE` is nonzero exactly in `ERROR` (R28, R154); while
a command runs `IDX <= LEN`, and a second pass is one of `JK64` over a buffer that is not empty (R31). (That `OPL`
names one of the nine operations, the rest of R31, holds by its type.) -/
def MachineInv (s : State) : Prop :=
  Memory.wf s.buf = true ∧ (s.ecode ≠ .none ↔ s.phase = .error) ∧
    (s.phase = .busy → s.idx ≤ s.len ∧ (s.pass = true → s.opl = ⟨.jk, .w64⟩ ∧ s.len ≠ 0))

/-- The host's guarantee for a present operand (R173, R174): `ARG` is the length of the buffer `bs` and `BUF` holds its
bytes from index 0 on. -/
def HoldsBuffer (s : State) (bs : List U8) : Prop :=
  s.arg.toNat = bs.length ∧ ∀ i, i < bs.length → Memory.read s.buf i = bs[i]?

/-- Every operand byte of the running command was supplied (R54, U5). -/
def Supplied (s : State) : Prop := ∀ i, i < s.len.toNat → Memory.read s.buf i ≠ none

/-- The command reads a buffer: a hash command with a present operand (R65). -/
def usesBuffer : Instr → Bool
  | .tlkup _ => false
  | .ck16 p | .ck32 p | .ck64 p | .jk16 p | .jk32 p | .jk64 p | .fn16 p | .fn32 p | .fn64 p => p == .present

/-- `n` steps of the machine, stopping at the first fault or refusal. -/
def runSteps : Nat → State → Outcome
  | 0, s => .next s
  | n + 1, s =>
    match step s with
    | .next t => runSteps n t
    | .fault r => .fault r
    | .refused r => .refused r

/-- A run of `n` steps is safe when it neither faults nor is refused. -/
def SafeRun (n : Nat) (s : State) : Prop := ∃ t, runSteps n s = .next t

/-- A turn that leaves a running command over the buffer `bs` alone (R175, R176): a step of the block, a register read, a
poll, an ignored write, or a store that changes no byte of the operand (log 15). -/
def Harmless (bs : List U8) : Turn → Prop
  | .block | .await _ | .host (.read _) | .host (.writeStatus _) | .host (.writeResult _) => True
  | .host (.writeBuf i b) => bs.length ≤ i.toNat ∨ bs[i.toNat]? = some b
  | .host (.writeArg _) | .host (.writeCmd _) | .reset => False

/-- Only harmless turns are to come (none at all, for instance). -/
def Undisturbed (bs : List U8) (s : State) : Prop := ∀ t ∈ s.agenda, Harmless bs t

/-- How many of the first `m` steps from `s` are turns of the block (an empty agenda gives the block its turn). -/
def blocksTaken : Nat → State → Nat
  | 0, _ => 0
  | m + 1, s =>
    (if s.agenda.head?.getD .block = .block then 1 else 0) +
      match step s with
      | .next t => blocksTaken m t
      | _ => 0

/-- From `s` the command `i`, once issued, takes exactly `n` steps of the block, whatever harmless turns lie between
them: however far the machine has run, it is `BUSY` while fewer than `n` turns of the block were taken and `DONE` with
`res` in `RESULT` from the `n`-th on, and the `n`-th is taken some time. `CMD` holds the command's word, `ARG` and
`ECODE` are as in `s`, and so is every byte of `BUF` to which no pending turn stores (R35, R155, R179). -/
def RunsTo (i : Instr) (n : Nat) (s : State) (res : U64) : Prop :=
  ∃ t, exec i s = .next t ∧ (∃ m, n ≤ blocksTaken m t) ∧
    ∀ m, ∃ v, runSteps m t = .next v ∧ (blocksTaken m t < n → v.phase = .busy) ∧
      (n ≤ blocksTaken m t → v.phase = .done ∧ v.result = res) ∧
      v.cmd = encode i ∧ v.arg = s.arg ∧ v.ecode = s.ecode ∧
      ∀ a, (∀ j b, Turn.host (.writeBuf j b) ∈ s.agenda → j.toNat ≠ a) → Memory.read v.buf a = Memory.read s.buf a

end Sys2Proof.Machine
end

