-- ==== Sys2Proof/Certificates/Slice0/Obligations.lean ====
section
/-! DEFINITION. The statements for the provers. Rule numbers are the spec's. Free values (RESULT after `Issue`, engine
registers after `DONE`, a read of RESULT outside `DONE`) appear under an existential: no statement rests on one. -/

open Sys2Proof Sys2Proof.Machine

/-- Decoding the word of any command, with any operand, gives the command back (R61 to R63). -/
def Obligations.DecodeOfEncodedCommand : Prop := ∀ i : Instr, decodeWord (encode i) = .ok i

/-- A word that decodes to a command is that command's word: each command has one word per operand (R63). -/
def Obligations.EncodeOfDecodedWord : Prop := ∀ (w : U16) (i : Instr), decodeWord w = .ok i → encode i = w

/-- `legal(w)` of R64, clause by clause on the bits of the word: a word decodes exactly when it is legal. -/
def Obligations.DecodesExactlyLegalWords : Prop :=
  ∀ w : U16,
    (∃ i, decodeWord w = .ok i) ↔
      w.extractLsb' 5 3 = 0 ∧
        ((w.extractLsb' 0 2 ≠ 3 ∧ w.extractLsb' 2 2 ≠ 0 ∧ w.extractLsb' 8 8 = 0) ∨
          (w.extractLsb' 0 2 = 3 ∧ w.extractLsb' 2 2 = 0 ∧ w.extractLsb' 4 1 = 0))

/-- The masks of R63: a hash command matches `(w & 0xFFEF) = word_present`, `TLKUP` matches `(w & 0x00FF) = 0x0003`. -/
def Obligations.MaskedWordSelectsCommand : Prop :=
  ∀ w : U16,
    ((∃ i, decodeWord w = .ok (.tlkup i)) ↔ w &&& 0x00FF = 0x0003) ∧
      ((∃ p, decodeWord w = .ok (.ck16 p)) ↔ w &&& 0xFFEF = 0x0004) ∧
      ((∃ p, decodeWord w = .ok (.ck32 p)) ↔ w &&& 0xFFEF = 0x0008) ∧
      ((∃ p, decodeWord w = .ok (.ck64 p)) ↔ w &&& 0xFFEF = 0x000C) ∧
      ((∃ p, decodeWord w = .ok (.jk16 p)) ↔ w &&& 0xFFEF = 0x0005) ∧
      ((∃ p, decodeWord w = .ok (.jk32 p)) ↔ w &&& 0xFFEF = 0x0009) ∧
      ((∃ p, decodeWord w = .ok (.jk64 p)) ↔ w &&& 0xFFEF = 0x000D) ∧
      ((∃ p, decodeWord w = .ok (.fn16 p)) ↔ w &&& 0xFFEF = 0x0006) ∧
      ((∃ p, decodeWord w = .ok (.fn32 p)) ↔ w &&& 0xFFEF = 0x000A) ∧
      ((∃ p, decodeWord w = .ok (.fn64 p)) ↔ w &&& 0xFFEF = 0x000E)

/-- Words of the opcode map (R63), written out, decode to the commands they stand for. -/
def Obligations.OpcodeMapWordsDecode : Prop :=
  decodeWord 0x6103 = .ok (.tlkup 0x61) ∧ decodeWord 0x0004 = .ok (.ck16 .present) ∧
    decodeWord 0x0018 = .ok (.ck32 .absent) ∧ decodeWord 0x000D = .ok (.jk64 .present) ∧
    decodeWord 0x0015 = .ok (.jk16 .absent) ∧ decodeWord 0x000A = .ok (.fn32 .present) ∧
    decodeWord 0x001E = .ok (.fn64 .absent)

/-- When the next turn is the host's write of a word that decodes to `i`, the step is `exec i`, the turn having left
the agenda; and the word placed by `withFetchWord` is what the very next step runs (R32; logs 11, 20). -/
def Obligations.StepRunsWrittenCommand : Prop :=
  (∀ (s : State) (w : U16) (i : Instr) (rest : List Turn), s.agenda = .host (.writeCmd w) :: rest →
      decodeWord w = .ok i → step s = exec i { s with agenda := rest }) ∧
    ∀ (s : State) (nbits w : Nat) (i : Instr), decodeTableWord nbits w = some i →
      step (s.withFetchWord nbits w) = exec i s

/-- With nothing on the agenda the block moves, and outside `BUSY` no block step is enabled: nothing changes (R31). That
the block moves then, and that an idle step changes nothing, are the model's choices (logs 11, 12). -/
def Obligations.EmptyAgendaGivesBlockTurn : Prop :=
  ∀ s : State,
    (s.agenda = [] → step s = blockTurn s) ∧
      (∀ rest, s.agenda = .block :: rest → step s = blockTurn { s with agenda := rest }) ∧
      (s.phase ≠ .busy → blockTurn s = .next s)

/-- `TLKUP i` in `IDLE` or `DONE` leaves `T[i]`, zero-extended, in `RESULT` and is `DONE`; nothing else but `CMD`
changes (R82). -/
def Obligations.TlkupCompletes : Prop :=
  ∀ (s : State) (i : U8), Ready s →
    exec (.tlkup i) s =
      .next { s with cmd := i.setWidth 16 <<< 8 ||| 0x0003, result := (Config.tRom i).setWidth 64, phase := .done }

/-- The absent forms of the custom and FNV commands return 0 at every width and start no engine (R99). -/
def Obligations.AbsentCustomAndFnvComplete : Prop :=
  ∀ s : State, Ready s →
    exec (.ck16 .absent) s = .next { s with cmd := 0x0014, result := 0, phase := .done } ∧
      exec (.ck32 .absent) s = .next { s with cmd := 0x0018, result := 0, phase := .done } ∧
      exec (.ck64 .absent) s = .next { s with cmd := 0x001C, result := 0, phase := .done } ∧
      exec (.fn16 .absent) s = .next { s with cmd := 0x0016, result := 0, phase := .done } ∧
      exec (.fn32 .absent) s = .next { s with cmd := 0x001A, result := 0, phase := .done } ∧
      exec (.fn64 .absent) s = .next { s with cmd := 0x001E, result := 0, phase := .done }

/-- The absent forms of the Jenkins commands return the constant of their width, sign-extended, and start no engine
(R119, R144). -/
def Obligations.AbsentJenkinsCompletes : Prop :=
  ∀ s : State, Ready s →
    exec (.jk16 .absent) s = .next { s with cmd := 0x0015, result := 15401, phase := .done } ∧
      exec (.jk32 .absent) s =
        .next { s with cmd := 0x0019, result := Config.jkNull32.signExtend 64, phase := .done } ∧
      exec (.jk64 .absent) s = .next { s with cmd := 0x001D, result := Config.jkNull64, phase := .done }

/-- `Issue` of a custom command with a present operand seeds `C1` and `C2`, latches the length from `ARG` and the
operation, and starts the run; `RESULT` holds some unspecified value (R22, R32). -/
def Obligations.PresentCustomLaunches : Prop :=
  ∀ s : State, Ready s → ∃ (r : U64) (n : Nat),
    exec (.ck16 .present) s =
        .next { s with
          cmd := 0x0004, len := s.arg, opl := ⟨.ck, .w16⟩, idx := 0, pass := false, c1 := 0xfab1c0e1,
          c2 := 0xca140be5, result := r, drawn := n, phase := .busy } ∧
      exec (.ck32 .present) s =
        .next { s with
          cmd := 0x0008, len := s.arg, opl := ⟨.ck, .w32⟩, idx := 0, pass := false, c1 := 0xfab1c0e1,
          c2 := 0xca140be5, result := r, drawn := n, phase := .busy } ∧
      exec (.ck64 .present) s =
        .next { s with
          cmd := 0x000C, len := s.arg, opl := ⟨.ck, .w64⟩, idx := 0, pass := false, c1 := 0xfab1c0e1,
          c2 := 0xca140be5, result := r, drawn := n, phase := .busy }

/-- `Issue` of a Jenkins command with a present operand seeds `H` with 0 (R23, R32). -/
def Obligations.PresentJenkinsLaunches : Prop :=
  ∀ s : State, Ready s → ∃ (r : U64) (n : Nat),
    exec (.jk16 .present) s =
        .next { s with
          cmd := 0x0005, len := s.arg, opl := ⟨.jk, .w16⟩, idx := 0, pass := false, h := 0, result := r, drawn := n,
          phase := .busy } ∧
      exec (.jk32 .present) s =
        .next { s with
          cmd := 0x0009, len := s.arg, opl := ⟨.jk, .w32⟩, idx := 0, pass := false, h := 0, result := r, drawn := n,
          phase := .busy } ∧
      exec (.jk64 .present) s =
        .next { s with
          cmd := 0x000D, len := s.arg, opl := ⟨.jk, .w64⟩, idx := 0, pass := false, h := 0, result := r, drawn := n,
          phase := .busy }

/-- `Issue` of an FNV command with a present operand seeds `HV` with `FNV_BASIS` (R24, R32). The number of the basis is
PRESUMED (log 5). -/
def Obligations.PresentFnvLaunches : Prop :=
  ∀ s : State, Ready s → ∃ (r : U64) (n : Nat),
    exec (.fn16 .present) s =
        .next { s with
          cmd := 0x0006, len := s.arg, opl := ⟨.fn, .w16⟩, idx := 0, pass := false, hv := 0xcbf29ce484222325,
          result := r, drawn := n, phase := .busy } ∧
      exec (.fn32 .present) s =
        .next { s with
          cmd := 0x000A, len := s.arg, opl := ⟨.fn, .w32⟩, idx := 0, pass := false, hv := 0xcbf29ce484222325,
          result := r, drawn := n, phase := .busy } ∧
      exec (.fn64 .present) s =
        .next { s with
          cmd := 0x000E, len := s.arg, opl := ⟨.fn, .w64⟩, idx := 0, pass := false, hv := 0xcbf29ce484222325,
          result := r, drawn := n, phase := .busy }

/-- A custom command over a buffer the host supplied runs `BUSY` for exactly `len + 1` block steps and ends `DONE` with
the fold of `ck_wide(buf)`, sign-extended (R35, R95 to R98), whatever harmless turns of the host lie between the block
steps (R155, R176): reads, polls, ignored writes, stores that change no operand byte (log 15). -/
def Obligations.CustomRunsToFold : Prop :=
  ∀ (s : State) (bs : List U8), Ready s → HoldsBuffer s bs → Undisturbed bs s →
    RunsTo (.ck16 .present) (bs.length + 1) s ((fold64to16 (ckWide mix bs)).signExtend 64) ∧
      RunsTo (.ck32 .present) (bs.length + 1) s ((fold64to32 (ckWide mix bs)).signExtend 64) ∧
      RunsTo (.ck64 .present) (bs.length + 1) s (ckWide mix bs)

/-- An FNV command runs for `len + 1` block steps to the fold of `fnv_wide(buf)` (R35, R132 to R135), whatever harmless
turns of the host lie between them (R155; log 15). The numbers of the basis and the prime are PRESUMED (log 5). -/
def Obligations.FnvRunsToFold : Prop :=
  ∀ (s : State) (bs : List U8), Ready s → HoldsBuffer s bs → Undisturbed bs s →
    RunsTo (.fn16 .present) (bs.length + 1) s ((fold64to16 (fnvWide bs)).signExtend 64) ∧
      RunsTo (.fn32 .present) (bs.length + 1) s ((fold64to32 (fnvWide bs)).signExtend 64) ∧
      RunsTo (.fn64 .present) (bs.length + 1) s (fnvWide bs)

/-- `JK16` and `JK32` run for `len + 1` block steps to `jk32(buf, 0)`, folded for `JK16` (R35, R113 to R115), whatever
harmless turns of the host lie between them (R155; log 15). -/
def Obligations.JenkinsRunsToHash : Prop :=
  ∀ (s : State) (bs : List U8), Ready s → HoldsBuffer s bs → Undisturbed bs s →
    RunsTo (.jk16 .present) (bs.length + 1) s ((fold32to16 (jk32 bs 0)).signExtend 64) ∧
      RunsTo (.jk32 .present) (bs.length + 1) s ((jk32 bs 0).signExtend 64)

/-- `JK64` runs for `2 * len + 2` block steps (1 for the empty buffer) to `{h1, h2}`: `h1` the plain hash, `h2` the hash
reseeded with `h1 ^ JK_RESEED`, forced to 0 for the empty buffer (R35, R116, R118), whatever harmless turns of the host
lie between them (R155; log 15). -/
def Obligations.JenkinsWideRunsTwice : Prop :=
  ∀ (s : State) (bs : List U8), Ready s → HoldsBuffer s bs → Undisturbed bs s →
    (bs ≠ [] →
        RunsTo (.jk64 .present) (2 * bs.length + 2) s (jk32 bs 0 ++ jk32 bs (jk32 bs 0 ^^^ Config.jkReseed))) ∧
      (bs = [] → RunsTo (.jk64 .present) 1 s 0)

/-- The result of a command, and the number of block steps it takes, depend on nothing but the command, the length
operand and the bytes of the buffer (and on neither of these where no buffer is read): not on any earlier command, on
reset history, on what any register holds, or on when the host reads registers, polls or stores elsewhere in `BUF` while
the command runs (R4, R36, R155; which stores are harmless: log 15). -/
def Obligations.ResultIndependentOfHistory : Prop :=
  ∀ (i : Instr) (s₁ s₂ : State) (bs : List U8), Ready s₁ → Ready s₂ → Undisturbed bs s₁ → Undisturbed bs s₂ →
    (usesBuffer i = true → HoldsBuffer s₁ bs ∧ HoldsBuffer s₂ bs) →
    ∃ (n : Nat) (r : U64), RunsTo i n s₁ r ∧ RunsTo i n s₂ r

/-- One poll of the host (R69 steps 4 and 5): it reads `STATUS`; in `BUSY` it polls again after the block's steps meanwhile
(the next number of `gaps`, else one), in `DONE` the read of `RESULT` is next, in `IDLE` and `ERROR` nothing more is
read. No register of the block changes. (How many block steps lie between two polls is open: log 21.) -/
def Obligations.PollFollowsStatus : Prop :=
  ∀ (s : State) (gaps : List Nat) (rest : List Turn), s.agenda = .await gaps :: rest →
    step s =
      .next { s with
        readData := some (.status (statusWord s))
        agenda :=
          match s.phase with
          | .busy => List.replicate (gaps.headD 1) .block ++ .await gaps.tail :: rest
          | .done => .host (.read .result) :: rest
          | .idle | .error => rest }

/-- An assembler line (R68) run as the host sequence it stands for (R69), from any state that accepts a command, whatever
earlier lines left there and however many block steps lie between two polls: no step faults or is refused, the turns of
the line are used up and no others, and the host's last read answers the hash of the line's bytes, the absent constant,
or the table byte. `ECODE` is as before; `BUF` holds the line's bytes from index 0 and is as before elsewhere. (The line
as turns is the model's rendering: logs 11, 13, 21.) -/
def Obligations.LineReadsResult : Prop :=
  ∀ (s : State) (l : Line) (gaps : List Nat) (rest : List Turn), Ready s → l.fits = true →
    s.agenda = l.turns gaps ++ rest →
    ∃ n t, runSteps n s = .next t ∧ t.agenda = rest ∧ t.readData = some (.result l.result) ∧ t.result = l.result ∧
      t.phase = .done ∧ t.cmd = encode l.instr ∧ t.ecode = s.ecode ∧
      (∀ a, a < l.bytes.length → Memory.read t.buf a = l.bytes[a]?) ∧
      ∀ a, l.bytes.length ≤ a → Memory.read t.buf a = Memory.read s.buf a

/-- A line met in `ERROR` (R69 step 5, R157): its writes are ignored, the one poll reads `STATUS`, and `RESULT` is not
read; `STATE`, `ECODE`, `CMD`, `ARG` and `RESULT` are as before. (The line as turns: logs 11, 13, 21.) -/
def Obligations.LineInErrorReadsNoResult : Prop :=
  ∀ (s : State) (l : Line) (gaps : List Nat) (rest : List Turn), s.phase = .error →
    s.agenda = l.turns gaps ++ rest →
    ∃ t, runSteps (l.turns gaps).length s = .next t ∧ t.agenda = rest ∧
      t.readData = some (.status (statusWord s)) ∧ t.phase = .error ∧ t.ecode = s.ecode ∧ t.cmd = s.cmd ∧
      t.arg = s.arg ∧ t.result = s.result

/-- A reserved word written to `CMD` in `IDLE` or `DONE` is copied into `CMD` and raises `ReservedCommand`: `ECODE` 1,
`STATE` `ERROR`, nothing else written (R151). -/
def Obligations.ReservedWordRaises : Prop :=
  ∀ (s : State) (w : U16) (rest : List Turn) (e : DecodeError), s.agenda = .host (.writeCmd w) :: rest → Ready s →
    decodeWord w = .error e →
    step s = .next { s with agenda := rest, cmd := w, ecode := .reservedCommand, phase := .error }

/-- Any write to `CMD`, legal word or reserved, and any write to `ARG` in `BUSY` is discarded and raises
`BusyViolation` (R152, R155). That the abandoned run's registers and `RESULT` keep their bits is the model's choice
(U6; log 9). -/
def Obligations.BusyWriteRaises : Prop :=
  ∀ (s : State) (rest : List Turn), s.phase = .busy →
    (∀ w, s.agenda = .host (.writeCmd w) :: rest →
        step s = .next { s with agenda := rest, ecode := .busyViolation, phase := .error }) ∧
      (∀ v, s.agenda = .host (.writeArg v) :: rest →
        step s = .next { s with agenda := rest, ecode := .busyViolation, phase := .error }) ∧
      ∀ i, exec i s = .next { s with ecode := .busyViolation, phase := .error }

/-- In `ERROR` a write to `CMD` (of any word) or to `ARG` changes nothing: no second exception, `ECODE` keeps the first
code (R157). -/
def Obligations.ErrorIgnoresWrites : Prop :=
  ∀ (s : State) (rest : List Turn), s.phase = .error →
    (∀ w, s.agenda = .host (.writeCmd w) :: rest → step s = .next { s with agenda := rest }) ∧
      (∀ v, s.agenda = .host (.writeArg v) :: rest → step s = .next { s with agenda := rest }) ∧
      ∀ i, exec i s = .next s

/-- `ERROR` is left only by reset: any other step from it keeps `STATE`, `ECODE`, `CMD` and `ARG` (R157), and `RESULT`
(the model's choice, log 9). -/
def Obligations.ErrorLeftOnlyByReset : Prop :=
  ∀ s t : State, s.phase = .error → (∀ rest, s.agenda ≠ .reset :: rest) → step s = .next t →
    t.phase = .error ∧ t.ecode = s.ecode ∧ t.cmd = s.cmd ∧ t.arg = s.arg ∧ t.result = s.result

/-- The complete list of exceptions (R150): `ERROR` is entered only by a reserved word written to `CMD` in `IDLE` or
`DONE` (code 1) or by a write to `CMD` or `ARG` in `BUSY` (code 2). -/
def Obligations.ExceptionsHaveTwoCauses : Prop :=
  ∀ s t : State, step s = .next t → s.phase ≠ .error → t.phase = .error →
    (t.ecode = .reservedCommand ∧ Ready s ∧
        ∃ w rest e, s.agenda = .host (.writeCmd w) :: rest ∧ decodeWord w = .error e ∧ t.cmd = w) ∨
      (t.ecode = .busyViolation ∧ s.phase = .busy ∧
        ∃ rest, (∃ w, s.agenda = .host (.writeCmd w) :: rest) ∨ (∃ v, s.agenda = .host (.writeArg v) :: rest))

/-- The machine stops only where the host broke its contract, and these are the model's stops: a fault on a byte below
`LEN` that was never supplied (U5, log 14), a refusal on a store that changes an operand byte of the running command
(U4, log 15). -/
def Obligations.StopsOnlyOnHostBreach : Prop :=
  ∀ s : State,
    (∀ f, step s = .fault f →
        f = .bufferByteMissing ∧ s.phase = .busy ∧ s.idx < s.len ∧ Memory.read s.buf s.idx.toNat = none) ∧
      ∀ r, step s = .refused r →
        r = .operandChanged ∧ s.phase = .busy ∧
          ∃ i b rest, s.agenda = .host (.writeBuf i b) :: rest ∧ i < s.len ∧
            Memory.read s.buf i.toNat ≠ some b

/-- Every command completes in every state: none faults, none is refused; issued in `IDLE` or `DONE` it raises no
exception (R5). -/
def Obligations.EveryCommandCompletes : Prop :=
  ∀ (i : Instr) (s : State), ∃ t, exec i s = .next t ∧ (Ready s → t.ecode = s.ecode ∧ (t.phase = .done ∨ t.phase = .busy))

/-- What reset leaves, where the spec gives a value: `STATE` `IDLE`, `ECODE`, `ARG` and `CMD` 0 (R37). -/
def Obligations.ResetStateValues : Prop :=
  State.reset.phase = .idle ∧ State.reset.ecode = .none ∧ State.reset.arg = 0 ∧ State.reset.cmd = 0

/-- The reset event, in any state: `STATE` `IDLE`, `ECODE`, `ARG` and `CMD` 0, every byte of `BUF` untouched (R170). -/
def Obligations.ResetEventRestoresIdle : Prop :=
  ∀ (s : State) (rest : List Turn), s.agenda = .reset :: rest →
    ∃ t, step s = .next t ∧ t.phase = .idle ∧ t.ecode = .none ∧ t.arg = 0 ∧ t.cmd = 0 ∧ t.agenda = rest ∧
      ∀ a, Memory.read t.buf a = Memory.read s.buf a

/-- `WriteARG` in `IDLE` or `DONE` latches the length for the next command and changes nothing else (R27). -/
def Obligations.WriteArgLatchesLength : Prop :=
  ∀ (s : State) (v : BitVec Config.lenw) (rest : List Turn), s.agenda = .host (.writeArg v) :: rest → Ready s →
    step s = .next { s with agenda := rest, arg := v }

/-- Register reads (R27): each answers the register's value with no side effect on the block, in every state; `RESULT`
reads as the last result in `DONE`, and as some value in any other state. (Where the answer stands is the model's own field
`readData`, log 13.) -/
def Obligations.RegisterReadsAnswer : Prop :=
  ∀ (s : State) (rest : List Turn),
    (s.agenda = .host (.read .arg) :: rest → step s = .next { s with agenda := rest, readData := some (.arg s.arg) }) ∧
      (s.agenda = .host (.read .cmd) :: rest →
        step s = .next { s with agenda := rest, readData := some (.cmd s.cmd) }) ∧
      (s.agenda = .host (.read .status) :: rest →
        step s = .next { s with agenda := rest, readData := some (.status (statusWord s)) }) ∧
      (s.agenda = .host (.read .result) :: rest → s.phase = .done →
        step s = .next { s with agenda := rest, readData := some (.result s.result) }) ∧
      (s.agenda = .host (.read .result) :: rest → s.phase ≠ .done →
        ∃ v n, step s = .next { s with agenda := rest, readData := some (.result v), drawn := n })

/-- The `STATUS` word (R28): `STATE` in bits [1:0] (0 `IDLE`, 1 `BUSY`, 2 `DONE`, 3 `ERROR`), `ECODE` in bits [3:2]
(0 none, 1 `ReservedCommand`, 2 `BusyViolation`), bits [31:4] read as 0. -/
def Obligations.StatusWordLayout : Prop :=
  ∀ s : State,
    (statusWord s).extractLsb' 4 28 = 0 ∧
      (statusWord s).extractLsb' 0 2 =
        (match s.phase with | .idle => 0 | .busy => 1 | .done => 2 | .error => 3) ∧
      (statusWord s).extractLsb' 2 2 =
        (match s.ecode with | .none => 0 | .reservedCommand => 1 | .busyViolation => 2)

/-- Writes to `STATUS` and to `RESULT` are ignored, in every state (R27). -/
def Obligations.ReadOnlyRegistersIgnoreWrites : Prop :=
  ∀ (s : State) (rest : List Turn),
    (∀ v, s.agenda = .host (.writeStatus v) :: rest → step s = .next { s with agenda := rest }) ∧
      ∀ v, s.agenda = .host (.writeResult v) :: rest → step s = .next { s with agenda := rest }

/-- `RESULT` is valid from the step that sets `STATE` to `DONE` until the next `WriteCMD` (R177): in `DONE`, any step
but a write to `CMD` or a reset stays in `DONE` and keeps it. -/
def Obligations.ResultLivesUntilNextCommand : Prop :=
  ∀ s t : State, s.phase = .done → (∀ w rest, s.agenda ≠ .host (.writeCmd w) :: rest) →
    (∀ rest, s.agenda ≠ .reset :: rest) → step s = .next t → t.phase = .done ∧ t.result = s.result

/-- A host store puts the byte at its index, leaves every other byte of `BUF`, and changes no register: while no command
runs (R40), and, which is the model's choice where R40 has the host store only then, during a run where it changes no
operand byte (outside the operand, or the byte already there; R176, DEDUCED, log 15). -/
def Obligations.HostStoreChangesOneByte : Prop :=
  ∀ (s : State) (i : BitVec Config.lenw) (b : U8) (rest : List Turn), s.agenda = .host (.writeBuf i b) :: rest →
    (s.phase ≠ .busy ∨ s.len ≤ i ∨ Memory.read s.buf i.toNat = some b) →
    ∃ m, step s = .next { s with agenda := rest, buf := m } ∧ Memory.read m i.toNat = some b ∧
      ∀ a, a ≠ i.toNat → Memory.read m a = Memory.read s.buf a

/-- A host store that would change an operand byte of the running command is given no meaning: the model refuses it
(R176, U4; log 15). -/
def Obligations.OperandChangeRefused : Prop :=
  ∀ (s : State) (i : BitVec Config.lenw) (b : U8) (rest : List Turn), s.agenda = .host (.writeBuf i b) :: rest →
    s.phase = .busy → i < s.len → Memory.read s.buf i.toNat ≠ some b → step s = .refused .operandChanged

/-- `ByteStep` of the custom engine (R94): `C2` is updated from the already updated `C1`; only `C1`, `C2` and `IDX`
change, whatever turns are still to come. -/
def Obligations.CustomByteStep : Prop :=
  ∀ (s : State) (b : U8), s.phase = .busy → s.opl.alg = .ck → s.idx < s.len →
    Memory.read s.buf s.idx.toNat = some b →
    let b32 : U32 := b.setWidth 32
    let i32 : U32 := s.idx.setWidth 32
    let c1' := s.c1.rotateLeft 7 ^^^ mix (s.c1 ^^^ s.c2) (b32 + i32) i32
    let c2' := s.c2.rotateLeft 9 ^^^ mix (c1' + s.c2) (b32 ^^^ i32) b32
    blockTurn s = .next { s with c1 := c1', c2 := c2', idx := s.idx + 1 }

/-- `ByteStep` of the Jenkins engine (R111): only `H` and `IDX` change. -/
def Obligations.JenkinsByteStep : Prop :=
  ∀ (s : State) (b : U8), s.phase = .busy → s.opl.alg = .jk → s.idx < s.len →
    Memory.read s.buf s.idx.toNat = some b →
    let h₁ : U32 := s.h + (b.setWidth 32 ^^^ s.len.setWidth 32)
    let h₂ := h₁ + h₁ <<< 10
    blockTurn s = .next { s with h := h₂ ^^^ h₂ >>> 6, idx := s.idx + 1 }

/-- `ByteStep` of the FNV engine (R131): add, then XOR, then multiply by the prime (whose number is PRESUMED, log 5);
only `HV` and `IDX` change. -/
def Obligations.FnvByteStep : Prop :=
  ∀ (s : State) (b : U8), s.phase = .busy → s.opl.alg = .fn → s.idx < s.len →
    Memory.read s.buf s.idx.toNat = some b →
    let b64 : U64 := b.setWidth 64
    let v₁ := s.hv + (b64 <<< 11 ||| b64 <<< 31 ||| b64 <<< 53)
    let v₂ := v₁ ^^^ (b64 ||| b64 <<< 23 ||| b64 <<< 43)
    blockTurn s = .next { s with hv := v₂ * 0x00000100000001b3, idx := s.idx + 1 }

/-- `Finish` of the custom engine (R34): the fold of `{C1, C2}` at the width of `OPL`, sign-extended, in `RESULT`;
`C1` and `C2` hold unspecified values afterwards (R36); that the latches keep theirs is the model's choice (log 8). -/
def Obligations.CustomFinish : Prop :=
  ∀ s : State, s.phase = .busy → s.opl.alg = .ck → s.idx = s.len → ∃ x y n,
    blockTurn s =
      .next { s with
        result :=
          (match s.opl.width with
            | .w16 => (fold64to16 (s.c1 ++ s.c2)).signExtend 64
            | .w32 => (fold64to32 (s.c1 ++ s.c2)).signExtend 64
            | .w64 => s.c1 ++ s.c2)
        phase := .done, c1 := x, c2 := y, drawn := n }

/-- `Finish` of the FNV engine (R34): the fold of `HV` at the width of `OPL`; `HV` holds an unspecified value afterwards
(R36), the latches keep theirs (the model's choice, log 8). -/
def Obligations.FnvFinish : Prop :=
  ∀ s : State, s.phase = .busy → s.opl.alg = .fn → s.idx = s.len → ∃ x n,
    blockTurn s =
      .next { s with
        result :=
          (match s.opl.width with
            | .w16 => (fold64to16 s.hv).signExtend 64
            | .w32 => (fold64to32 s.hv).signExtend 64
            | .w64 => s.hv)
        phase := .done, hv := x, drawn := n }

/-- `Finish` of `JK32` and `JK16` (R34) with the final step of R112 written out: `h += h<<3`, then
`h ^= (h>>11) + len` (the addition first), then `h += h<<15`. The engine's registers are unspecified afterwards (R36), the
latches keep their values (the model's choice, log 8). -/
def Obligations.JenkinsFinish : Prop :=
  ∀ s : State, s.phase = .busy → s.idx = s.len →
    let h₁ := s.h + s.h <<< 3
    let h₂ := h₁ ^^^ (h₁ >>> 11 + s.len.setWidth 32)
    let h₃ := h₂ + h₂ <<< 15
    (s.opl = ⟨.jk, .w32⟩ → ∃ x y n,
        blockTurn s = .next { s with result := h₃.signExtend 64, phase := .done, h := x, h1l := y, drawn := n }) ∧
      (s.opl = ⟨.jk, .w16⟩ → ∃ x y n,
        blockTurn s =
          .next { s with result := (fold32to16 h₃).signExtend 64, phase := .done, h := x, h1l := y, drawn := n })

/-- `Finish` of `JK64` (R34, R118): the first pass over a buffer that is not empty latches `h1` in `H1L`, reseeds `H`
and starts again with `STATE` still `BUSY`; over the empty buffer it ends with `{h1, 0}`; the second pass ends with
`{H1L, h2}`. After `DONE` the engine's registers are unspecified (R36), the latches keep their values (the model's
choice, log 8). -/
def Obligations.JenkinsWideFinish : Prop :=
  ∀ s : State, s.phase = .busy → s.opl = ⟨.jk, .w64⟩ → s.idx = s.len →
    (s.pass = false → s.len ≠ 0 →
        blockTurn s =
          .next { s with
            h1l := jkFinal s.h (s.len.setWidth 32), h := jkFinal s.h (s.len.setWidth 32) ^^^ Config.jkReseed,
            idx := 0, pass := true }) ∧
      (s.pass = false → s.len = 0 → ∃ x y n,
        blockTurn s =
          .next { s with
            result := jkFinal s.h (s.len.setWidth 32) ++ (0 : U32), phase := .done, h := x, h1l := y, drawn := n }) ∧
      (s.pass = true → ∃ x y n,
        blockTurn s =
          .next { s with
            result := s.h1l ++ jkFinal s.h (s.len.setWidth 32), phase := .done, h := x, h1l := y, drawn := n })

/-- What a turn of the block leaves unchanged: `ARG`, `CMD`, `ECODE`, `LEN`, `OPL`, the agenda, the host's last read,
EVERY BYTE OF `BUF` (the block performs no store, R40), and the accumulators of the two engines it does not run (R22 to
R24). (At the end of a command `LEN` and `OPL` may hold any value, U6: the model keeps them, log 8.) -/
def Obligations.BlockTurnFrame : Prop :=
  ∀ s t : State, blockTurn s = .next t →
    t.arg = s.arg ∧ t.cmd = s.cmd ∧ t.ecode = s.ecode ∧ t.len = s.len ∧ t.opl = s.opl ∧ t.agenda = s.agenda ∧
      t.readData = s.readData ∧ (∀ a, Memory.read t.buf a = Memory.read s.buf a) ∧
      (s.opl.alg ≠ .ck → t.c1 = s.c1 ∧ t.c2 = s.c2) ∧ (s.opl.alg ≠ .jk → t.h = s.h ∧ t.h1l = s.h1l) ∧
      (s.opl.alg ≠ .fn → t.hv = s.hv)

/-- The block never reads `BUF` at an index at or above `LEN` (R53): two buffer spaces that agree below `LEN` give the
same turn of the block, whatever they hold elsewhere. -/
def Obligations.BlockReadsOnlyBelowLength : Prop :=
  ∀ (s : State) (m : Memory), (∀ a, a < s.len.toNat → Memory.read m a = Memory.read s.buf a) →
    (∀ t, blockTurn s = .next t → blockTurn { s with buf := m } = .next { t with buf := m }) ∧
      ∀ f, blockTurn s = .fault f → blockTurn { s with buf := m } = .fault f

/-- Progress (R179): a running command whose operand bytes were all supplied, with no further turn of the host or of
reset, is `DONE` after at most `2 * LEN + 2` steps, from any state that meets the invariant. -/
def Obligations.RunningCommandFinishes : Prop :=
  ∀ s : State, MachineInv s → s.phase = .busy → s.agenda = [] → Supplied s →
    ∃ n t, n ≤ 2 * s.len.toNat + 2 ∧ runSteps n s = .next t ∧ t.phase = .done

/-- The folds (R141 to R143): slices XORed, equal to the source's shift and truncate form, and `fold64to16` is
`fold32to16` after `fold64to32`. -/
def Obligations.FoldsAreXorOfSlices : Prop :=
  (∀ h : U64,
      fold64to32 h = h.extractLsb' 32 32 ^^^ h.extractLsb' 0 32 ∧
        fold64to32 h = (h >>> 32 ^^^ h).setWidth 32 ∧
        fold64to16 h =
          h.extractLsb' 48 16 ^^^ h.extractLsb' 32 16 ^^^ h.extractLsb' 16 16 ^^^ h.extractLsb' 0 16 ∧
        fold64to16 h = (h >>> 48 ^^^ h >>> 32 ^^^ h >>> 16 ^^^ h).setWidth 16 ∧
        fold64to16 h = fold32to16 (fold64to32 h)) ∧
    ∀ h : U32,
      fold32to16 h = h.extractLsb' 16 16 ^^^ h.extractLsb' 0 16 ∧ fold32to16 h = (h >>> 16 ^^^ h).setWidth 16

/-- What may be assumed of the Jenkins absent constants (R144): `JK_NULL16` is 15401; the other two are nonzero, larger
than 15401 as unsigned numbers, and differ from each other. -/
def Obligations.JenkinsNullConstants : Prop :=
  jkNull16 = 0x3C29 ∧ Config.jkNull32 ≠ 0 ∧ Config.jkNull64 ≠ 0 ∧ 15401 < Config.jkNull32.toNat ∧
    15401 < Config.jkNull64.toNat ∧ Config.jkNull64 ≠ Config.jkNull32.setWidth 64

/-- Absent and present-but-empty are different operands (R147): the table of the two patterns of every command, and
they differ in every row. The FNV values rest on the PRESUMED basis (log 5). -/
def Obligations.AbsentDiffersFromEmpty : Prop :=
  (∀ op : HashOp, absentConst op ≠ hashResult op []) ∧
    absentConst ⟨.ck, .w16⟩ = 0 ∧ hashResult ⟨.ck, .w16⟩ [] = 0xFBA1 ∧
    absentConst ⟨.ck, .w32⟩ = 0 ∧ hashResult ⟨.ck, .w32⟩ [] = 0x30A5CB04 ∧
    absentConst ⟨.ck, .w64⟩ = 0 ∧ hashResult ⟨.ck, .w64⟩ [] = 0xFAB1C0E1CA140BE5 ∧
    absentConst ⟨.jk, .w16⟩ = 15401 ∧ hashResult ⟨.jk, .w16⟩ [] = 0 ∧
    absentConst ⟨.jk, .w32⟩ = Config.jkNull32 ∧ hashResult ⟨.jk, .w32⟩ [] = 0 ∧
    absentConst ⟨.jk, .w64⟩ = Config.jkNull64 ∧ hashResult ⟨.jk, .w64⟩ [] = 0 ∧
    absentConst ⟨.fn, .w16⟩ = 0 ∧ hashResult ⟨.fn, .w16⟩ [] = 0xF011 ∧
    absentConst ⟨.fn, .w32⟩ = 0 ∧ hashResult ⟨.fn, .w32⟩ [] = 0x4FD0BFC1 ∧
    absentConst ⟨.fn, .w64⟩ = 0 ∧ hashResult ⟨.fn, .w64⟩ [] = 0xCBF29CE484222325

/-- Width consistency on one present buffer (R138, R149): the narrow FNV and custom results are folds of the 64-bit one,
`JK16` is the fold of `JK32`, and the high half of `JK64` is `JK32`. -/
def Obligations.WidthsAreConsistent : Prop :=
  ∀ bs : List U8,
    hashResult ⟨.fn, .w32⟩ bs = fold64to32 (hashResult ⟨.fn, .w64⟩ bs) ∧
      hashResult ⟨.fn, .w16⟩ bs = fold64to16 (hashResult ⟨.fn, .w64⟩ bs) ∧
      hashResult ⟨.fn, .w16⟩ bs = fold32to16 (hashResult ⟨.fn, .w32⟩ bs) ∧
      hashResult ⟨.ck, .w32⟩ bs = fold64to32 (hashResult ⟨.ck, .w64⟩ bs) ∧
      hashResult ⟨.ck, .w16⟩ bs = fold64to16 (hashResult ⟨.ck, .w64⟩ bs) ∧
      hashResult ⟨.jk, .w16⟩ bs = fold32to16 (hashResult ⟨.jk, .w32⟩ bs) ∧
      BitVec.extractLsb' 32 32 (hashResult ⟨.jk, .w64⟩ bs) = hashResult ⟨.jk, .w32⟩ bs

/-- The quantity `p` of the third sub-hash (R93): the sum, the difference and both products wrap first, then the
remainder modulo 104851 is taken, so it is below 104851. -/
def Obligations.MixPolynomialBelowModulus : Prop :=
  ∀ h c n : U32, (mixP h c n).toNat = (h * (c + n) * (c - n)).toNat % 104851 ∧ (mixP h c n).toNat < 104851

/-- The custom loop takes the bytes in ascending order, the byte at position `i` with `i mod 2^32` (R91, R95): one more
byte at the end is one more `ck_byte`, at the position that is the length so far, for every mixing function. -/
def Obligations.CustomLoopAppendsByte : Prop :=
  ∀ (mixFn : U32 → U32 → U32 → U32) (c : U32 × U32) (bs : List U8) (b : U8),
    ckLoop mixFn 0 c (bs ++ [b]) = ckByte mixFn (ckLoop mixFn 0 c bs) b (BitVec.ofNat 32 bs.length)

/-- The table is a bijection as the host sees it (R81, R84): two `TLKUP` commands with the same result have the same
index, and every byte value is the result of one. -/
def Obligations.TableLookupsAreBijective : Prop :=
  ∀ s : State, Ready s →
    (∀ (i j : U8) (t u : State), exec (.tlkup i) s = .next t → exec (.tlkup j) s = .next u → t.result = u.result →
        i = j) ∧
      ∀ v : U8, ∃ i t, exec (.tlkup i) s = .next t ∧ t.result = v.setWidth 64

/-- The presentation of a result (R29, R146): sign extension changes none of the W bits, and the 64-bit register read
as two's complement is the output integer. -/
def Obligations.PresentedResultKeepsPattern : Prop :=
  ∀ (w : Width) (res : BitVec w.bits),
    (presented res).setWidth w.bits = res ∧ (presented res).toInt = signedResult res

/-- The invariant holds at reset (R28, R31; that `BUF` lists nothing there is log 14). -/
def Obligations.ResetMeetsInvariant : Prop := MachineInv State.reset

/-- Every step of the machine, of any agent, keeps the invariant: the canonical form of `BUF`, `ECODE` nonzero exactly
in `ERROR`, `IDX <= LEN` while `BUSY`, a second pass only of `JK64` over a buffer that is not empty (R28, R31). -/
def Obligations.EveryStepKeepsInvariant : Prop := ∀ s t : State, MachineInv s → step s = .next t → MachineInv t

/-- What writing a command leaves unchanged, for every command in every state: `ARG`, the agenda, the host's last read,
every byte of `BUF`, `H1L`; the accumulators of each engine but the one a present operand starts; the latches unless a
run starts; and every register but `ECODE` and `STATE` when the block is not ready (R22 to R27, R65; that a run abandoned
by the write keeps its registers is the model's choice, log 9). -/
def Obligations.CommandFrame : Prop :=
  ∀ (i : Instr) (s t : State), exec i s = .next t →
    t.arg = s.arg ∧ t.agenda = s.agenda ∧ t.readData = s.readData ∧ t.h1l = s.h1l ∧
      (∀ a, Memory.read t.buf a = Memory.read s.buf a) ∧
      (t.phase ≠ .busy → t.len = s.len ∧ t.opl = s.opl ∧ t.idx = s.idx ∧ t.pass = s.pass ∧ t.c1 = s.c1 ∧
        t.c2 = s.c2 ∧ t.h = s.h ∧ t.hv = s.hv ∧ t.drawn = s.drawn) ∧
      (t.opl.alg ≠ .ck → t.c1 = s.c1 ∧ t.c2 = s.c2) ∧ (t.opl.alg ≠ .jk → t.h = s.h) ∧
      (t.opl.alg ≠ .fn → t.hv = s.hv) ∧
      (¬ Ready s → t = { s with ecode := t.ecode, phase := t.phase })

/-- With an absent operand, and for `TLKUP`, neither `ARG` nor `BUF` is read (R65): whatever they hold, the command does
the same. -/
def Obligations.AbsentIgnoresArgAndBuffer : Prop :=
  ∀ (i : Instr) (s t : State) (v : BitVec Config.lenw) (m : Memory), usesBuffer i = false → exec i s = .next t →
    exec i { s with arg := v, buf := m } = .next { t with arg := v, buf := m }
end

