-- ==== Sys2Proof/Laws/State.lean ====
section
/-! SUPPORT. One lemma per field per named update of the state, each true by definition, so that no proof unfolds a
record update. -/

namespace Sys2Proof.Machine

@[simp] theorem raise_arg (code : ECode) (s : State) : (raise code s).arg = s.arg := rfl
@[simp] theorem raise_cmd (code : ECode) (s : State) : (raise code s).cmd = s.cmd := rfl
@[simp] theorem raise_phase (code : ECode) (s : State) : (raise code s).phase = .error := rfl
@[simp] theorem raise_ecode (code : ECode) (s : State) : (raise code s).ecode = code := rfl
@[simp] theorem raise_result (code : ECode) (s : State) : (raise code s).result = s.result := rfl
@[simp] theorem raise_c1 (code : ECode) (s : State) : (raise code s).c1 = s.c1 := rfl
@[simp] theorem raise_c2 (code : ECode) (s : State) : (raise code s).c2 = s.c2 := rfl
@[simp] theorem raise_h (code : ECode) (s : State) : (raise code s).h = s.h := rfl
@[simp] theorem raise_h1l (code : ECode) (s : State) : (raise code s).h1l = s.h1l := rfl
@[simp] theorem raise_hv (code : ECode) (s : State) : (raise code s).hv = s.hv := rfl
@[simp] theorem raise_idx (code : ECode) (s : State) : (raise code s).idx = s.idx := rfl
@[simp] theorem raise_len (code : ECode) (s : State) : (raise code s).len = s.len := rfl
@[simp] theorem raise_opl (code : ECode) (s : State) : (raise code s).opl = s.opl := rfl
@[simp] theorem raise_pass (code : ECode) (s : State) : (raise code s).pass = s.pass := rfl
@[simp] theorem raise_buf (code : ECode) (s : State) : (raise code s).buf = s.buf := rfl
@[simp] theorem raise_agenda (code : ECode) (s : State) : (raise code s).agenda = s.agenda := rfl
@[simp] theorem raise_readData (code : ECode) (s : State) : (raise code s).readData = s.readData := rfl
@[simp] theorem raise_drawn (code : ECode) (s : State) : (raise code s).drawn = s.drawn := rfl

@[simp] theorem complete_arg (v : U64) (s : State) : (complete v s).arg = s.arg := rfl
@[simp] theorem complete_cmd (v : U64) (s : State) : (complete v s).cmd = s.cmd := rfl
@[simp] theorem complete_phase (v : U64) (s : State) : (complete v s).phase = .done := rfl
@[simp] theorem complete_ecode (v : U64) (s : State) : (complete v s).ecode = s.ecode := rfl
@[simp] theorem complete_result (v : U64) (s : State) : (complete v s).result = v := rfl
@[simp] theorem complete_c1 (v : U64) (s : State) : (complete v s).c1 = s.c1 := rfl
@[simp] theorem complete_c2 (v : U64) (s : State) : (complete v s).c2 = s.c2 := rfl
@[simp] theorem complete_h (v : U64) (s : State) : (complete v s).h = s.h := rfl
@[simp] theorem complete_h1l (v : U64) (s : State) : (complete v s).h1l = s.h1l := rfl
@[simp] theorem complete_hv (v : U64) (s : State) : (complete v s).hv = s.hv := rfl
@[simp] theorem complete_idx (v : U64) (s : State) : (complete v s).idx = s.idx := rfl
@[simp] theorem complete_len (v : U64) (s : State) : (complete v s).len = s.len := rfl
@[simp] theorem complete_opl (v : U64) (s : State) : (complete v s).opl = s.opl := rfl
@[simp] theorem complete_pass (v : U64) (s : State) : (complete v s).pass = s.pass := rfl
@[simp] theorem complete_buf (v : U64) (s : State) : (complete v s).buf = s.buf := rfl
@[simp] theorem complete_agenda (v : U64) (s : State) : (complete v s).agenda = s.agenda := rfl
@[simp] theorem complete_readData (v : U64) (s : State) : (complete v s).readData = s.readData := rfl
@[simp] theorem complete_drawn (v : U64) (s : State) : (complete v s).drawn = s.drawn := rfl

@[simp] theorem startRun_arg (op : HashOp) (s : State) : (startRun op s).arg = s.arg := rfl
@[simp] theorem startRun_cmd (op : HashOp) (s : State) : (startRun op s).cmd = s.cmd := rfl
@[simp] theorem startRun_phase (op : HashOp) (s : State) : (startRun op s).phase = .busy := rfl
@[simp] theorem startRun_ecode (op : HashOp) (s : State) : (startRun op s).ecode = s.ecode := rfl
@[simp] theorem startRun_result (op : HashOp) (s : State) : (startRun op s).result = (Config.unspecified s.drawn).result := rfl
@[simp] theorem startRun_c1 (op : HashOp) (s : State) : (startRun op s).c1 = s.c1 := rfl
@[simp] theorem startRun_c2 (op : HashOp) (s : State) : (startRun op s).c2 = s.c2 := rfl
@[simp] theorem startRun_h (op : HashOp) (s : State) : (startRun op s).h = s.h := rfl
@[simp] theorem startRun_h1l (op : HashOp) (s : State) : (startRun op s).h1l = s.h1l := rfl
@[simp] theorem startRun_hv (op : HashOp) (s : State) : (startRun op s).hv = s.hv := rfl
@[simp] theorem startRun_idx (op : HashOp) (s : State) : (startRun op s).idx = 0 := rfl
@[simp] theorem startRun_len (op : HashOp) (s : State) : (startRun op s).len = s.arg := rfl
@[simp] theorem startRun_opl (op : HashOp) (s : State) : (startRun op s).opl = op := rfl
@[simp] theorem startRun_pass (op : HashOp) (s : State) : (startRun op s).pass = false := rfl
@[simp] theorem startRun_buf (op : HashOp) (s : State) : (startRun op s).buf = s.buf := rfl
@[simp] theorem startRun_agenda (op : HashOp) (s : State) : (startRun op s).agenda = s.agenda := rfl
@[simp] theorem startRun_readData (op : HashOp) (s : State) : (startRun op s).readData = s.readData := rfl
@[simp] theorem startRun_drawn (op : HashOp) (s : State) : (startRun op s).drawn = s.drawn + 1 := rfl

@[simp] theorem resetBlock_arg (s : State) : (resetBlock s).arg = 0 := rfl
@[simp] theorem resetBlock_cmd (s : State) : (resetBlock s).cmd = 0 := rfl
@[simp] theorem resetBlock_phase (s : State) : (resetBlock s).phase = .idle := rfl
@[simp] theorem resetBlock_ecode (s : State) : (resetBlock s).ecode = .none := rfl
@[simp] theorem resetBlock_result (s : State) : (resetBlock s).result = (Config.unspecified s.drawn).result := rfl
@[simp] theorem resetBlock_c1 (s : State) : (resetBlock s).c1 = (Config.unspecified s.drawn).c1 := rfl
@[simp] theorem resetBlock_c2 (s : State) : (resetBlock s).c2 = (Config.unspecified s.drawn).c2 := rfl
@[simp] theorem resetBlock_h (s : State) : (resetBlock s).h = (Config.unspecified s.drawn).h := rfl
@[simp] theorem resetBlock_h1l (s : State) : (resetBlock s).h1l = (Config.unspecified s.drawn).h1l := rfl
@[simp] theorem resetBlock_hv (s : State) : (resetBlock s).hv = (Config.unspecified s.drawn).hv := rfl
@[simp] theorem resetBlock_idx (s : State) : (resetBlock s).idx = (Config.unspecified s.drawn).idx := rfl
@[simp] theorem resetBlock_len (s : State) : (resetBlock s).len = (Config.unspecified s.drawn).len := rfl
@[simp] theorem resetBlock_opl (s : State) : (resetBlock s).opl = (Config.unspecified s.drawn).opl := rfl
@[simp] theorem resetBlock_pass (s : State) : (resetBlock s).pass = (Config.unspecified s.drawn).pass := rfl
@[simp] theorem resetBlock_buf (s : State) : (resetBlock s).buf = s.buf := rfl
@[simp] theorem resetBlock_agenda (s : State) : (resetBlock s).agenda = s.agenda := rfl
@[simp] theorem resetBlock_readData (s : State) : (resetBlock s).readData = s.readData := rfl
@[simp] theorem resetBlock_drawn (s : State) : (resetBlock s).drawn = s.drawn + 1 := rfl

@[simp] theorem advance_arg (s : State) : (advance s).arg = s.arg := rfl
@[simp] theorem advance_cmd (s : State) : (advance s).cmd = s.cmd := rfl
@[simp] theorem advance_phase (s : State) : (advance s).phase = s.phase := rfl
@[simp] theorem advance_ecode (s : State) : (advance s).ecode = s.ecode := rfl
@[simp] theorem advance_result (s : State) : (advance s).result = s.result := rfl
@[simp] theorem advance_c1 (s : State) : (advance s).c1 = s.c1 := rfl
@[simp] theorem advance_c2 (s : State) : (advance s).c2 = s.c2 := rfl
@[simp] theorem advance_h (s : State) : (advance s).h = s.h := rfl
@[simp] theorem advance_h1l (s : State) : (advance s).h1l = s.h1l := rfl
@[simp] theorem advance_hv (s : State) : (advance s).hv = s.hv := rfl
@[simp] theorem advance_idx (s : State) : (advance s).idx = s.idx + 1 := rfl
@[simp] theorem advance_len (s : State) : (advance s).len = s.len := rfl
@[simp] theorem advance_opl (s : State) : (advance s).opl = s.opl := rfl
@[simp] theorem advance_pass (s : State) : (advance s).pass = s.pass := rfl
@[simp] theorem advance_buf (s : State) : (advance s).buf = s.buf := rfl
@[simp] theorem advance_agenda (s : State) : (advance s).agenda = s.agenda := rfl
@[simp] theorem advance_readData (s : State) : (advance s).readData = s.readData := rfl
@[simp] theorem advance_drawn (s : State) : (advance s).drawn = s.drawn := rfl

@[simp] theorem seedCk_arg (s : State) : (seedCk s).arg = s.arg := rfl
@[simp] theorem seedCk_cmd (s : State) : (seedCk s).cmd = s.cmd := rfl
@[simp] theorem seedCk_phase (s : State) : (seedCk s).phase = s.phase := rfl
@[simp] theorem seedCk_ecode (s : State) : (seedCk s).ecode = s.ecode := rfl
@[simp] theorem seedCk_result (s : State) : (seedCk s).result = s.result := rfl
@[simp] theorem seedCk_c1 (s : State) : (seedCk s).c1 = ckSeed1 := rfl
@[simp] theorem seedCk_c2 (s : State) : (seedCk s).c2 = ckSeed2 := rfl
@[simp] theorem seedCk_h (s : State) : (seedCk s).h = s.h := rfl
@[simp] theorem seedCk_h1l (s : State) : (seedCk s).h1l = s.h1l := rfl
@[simp] theorem seedCk_hv (s : State) : (seedCk s).hv = s.hv := rfl
@[simp] theorem seedCk_idx (s : State) : (seedCk s).idx = s.idx := rfl
@[simp] theorem seedCk_len (s : State) : (seedCk s).len = s.len := rfl
@[simp] theorem seedCk_opl (s : State) : (seedCk s).opl = s.opl := rfl
@[simp] theorem seedCk_pass (s : State) : (seedCk s).pass = s.pass := rfl
@[simp] theorem seedCk_buf (s : State) : (seedCk s).buf = s.buf := rfl
@[simp] theorem seedCk_agenda (s : State) : (seedCk s).agenda = s.agenda := rfl
@[simp] theorem seedCk_readData (s : State) : (seedCk s).readData = s.readData := rfl
@[simp] theorem seedCk_drawn (s : State) : (seedCk s).drawn = s.drawn := rfl

@[simp] theorem seedJk_arg (s : State) : (seedJk s).arg = s.arg := rfl
@[simp] theorem seedJk_cmd (s : State) : (seedJk s).cmd = s.cmd := rfl
@[simp] theorem seedJk_phase (s : State) : (seedJk s).phase = s.phase := rfl
@[simp] theorem seedJk_ecode (s : State) : (seedJk s).ecode = s.ecode := rfl
@[simp] theorem seedJk_result (s : State) : (seedJk s).result = s.result := rfl
@[simp] theorem seedJk_c1 (s : State) : (seedJk s).c1 = s.c1 := rfl
@[simp] theorem seedJk_c2 (s : State) : (seedJk s).c2 = s.c2 := rfl
@[simp] theorem seedJk_h (s : State) : (seedJk s).h = 0 := rfl
@[simp] theorem seedJk_h1l (s : State) : (seedJk s).h1l = s.h1l := rfl
@[simp] theorem seedJk_hv (s : State) : (seedJk s).hv = s.hv := rfl
@[simp] theorem seedJk_idx (s : State) : (seedJk s).idx = s.idx := rfl
@[simp] theorem seedJk_len (s : State) : (seedJk s).len = s.len := rfl
@[simp] theorem seedJk_opl (s : State) : (seedJk s).opl = s.opl := rfl
@[simp] theorem seedJk_pass (s : State) : (seedJk s).pass = s.pass := rfl
@[simp] theorem seedJk_buf (s : State) : (seedJk s).buf = s.buf := rfl
@[simp] theorem seedJk_agenda (s : State) : (seedJk s).agenda = s.agenda := rfl
@[simp] theorem seedJk_readData (s : State) : (seedJk s).readData = s.readData := rfl
@[simp] theorem seedJk_drawn (s : State) : (seedJk s).drawn = s.drawn := rfl

@[simp] theorem seedFn_arg (s : State) : (seedFn s).arg = s.arg := rfl
@[simp] theorem seedFn_cmd (s : State) : (seedFn s).cmd = s.cmd := rfl
@[simp] theorem seedFn_phase (s : State) : (seedFn s).phase = s.phase := rfl
@[simp] theorem seedFn_ecode (s : State) : (seedFn s).ecode = s.ecode := rfl
@[simp] theorem seedFn_result (s : State) : (seedFn s).result = s.result := rfl
@[simp] theorem seedFn_c1 (s : State) : (seedFn s).c1 = s.c1 := rfl
@[simp] theorem seedFn_c2 (s : State) : (seedFn s).c2 = s.c2 := rfl
@[simp] theorem seedFn_h (s : State) : (seedFn s).h = s.h := rfl
@[simp] theorem seedFn_h1l (s : State) : (seedFn s).h1l = s.h1l := rfl
@[simp] theorem seedFn_hv (s : State) : (seedFn s).hv = fnvBasis := rfl
@[simp] theorem seedFn_idx (s : State) : (seedFn s).idx = s.idx := rfl
@[simp] theorem seedFn_len (s : State) : (seedFn s).len = s.len := rfl
@[simp] theorem seedFn_opl (s : State) : (seedFn s).opl = s.opl := rfl
@[simp] theorem seedFn_pass (s : State) : (seedFn s).pass = s.pass := rfl
@[simp] theorem seedFn_buf (s : State) : (seedFn s).buf = s.buf := rfl
@[simp] theorem seedFn_agenda (s : State) : (seedFn s).agenda = s.agenda := rfl
@[simp] theorem seedFn_readData (s : State) : (seedFn s).readData = s.readData := rfl
@[simp] theorem seedFn_drawn (s : State) : (seedFn s).drawn = s.drawn := rfl

@[simp] theorem absorbCk_arg (b : U8) (s : State) : (absorbCk b s).arg = s.arg := rfl
@[simp] theorem absorbCk_cmd (b : U8) (s : State) : (absorbCk b s).cmd = s.cmd := rfl
@[simp] theorem absorbCk_phase (b : U8) (s : State) : (absorbCk b s).phase = s.phase := rfl
@[simp] theorem absorbCk_ecode (b : U8) (s : State) : (absorbCk b s).ecode = s.ecode := rfl
@[simp] theorem absorbCk_result (b : U8) (s : State) : (absorbCk b s).result = s.result := rfl
@[simp] theorem absorbCk_c1 (b : U8) (s : State) : (absorbCk b s).c1 = (ckByte mix (s.c1, s.c2) b (idx32 s)).1 := rfl
@[simp] theorem absorbCk_c2 (b : U8) (s : State) : (absorbCk b s).c2 = (ckByte mix (s.c1, s.c2) b (idx32 s)).2 := rfl
@[simp] theorem absorbCk_h (b : U8) (s : State) : (absorbCk b s).h = s.h := rfl
@[simp] theorem absorbCk_h1l (b : U8) (s : State) : (absorbCk b s).h1l = s.h1l := rfl
@[simp] theorem absorbCk_hv (b : U8) (s : State) : (absorbCk b s).hv = s.hv := rfl
@[simp] theorem absorbCk_idx (b : U8) (s : State) : (absorbCk b s).idx = s.idx := rfl
@[simp] theorem absorbCk_len (b : U8) (s : State) : (absorbCk b s).len = s.len := rfl
@[simp] theorem absorbCk_opl (b : U8) (s : State) : (absorbCk b s).opl = s.opl := rfl
@[simp] theorem absorbCk_pass (b : U8) (s : State) : (absorbCk b s).pass = s.pass := rfl
@[simp] theorem absorbCk_buf (b : U8) (s : State) : (absorbCk b s).buf = s.buf := rfl
@[simp] theorem absorbCk_agenda (b : U8) (s : State) : (absorbCk b s).agenda = s.agenda := rfl
@[simp] theorem absorbCk_readData (b : U8) (s : State) : (absorbCk b s).readData = s.readData := rfl
@[simp] theorem absorbCk_drawn (b : U8) (s : State) : (absorbCk b s).drawn = s.drawn := rfl

@[simp] theorem absorbJk_arg (b : U8) (s : State) : (absorbJk b s).arg = s.arg := rfl
@[simp] theorem absorbJk_cmd (b : U8) (s : State) : (absorbJk b s).cmd = s.cmd := rfl
@[simp] theorem absorbJk_phase (b : U8) (s : State) : (absorbJk b s).phase = s.phase := rfl
@[simp] theorem absorbJk_ecode (b : U8) (s : State) : (absorbJk b s).ecode = s.ecode := rfl
@[simp] theorem absorbJk_result (b : U8) (s : State) : (absorbJk b s).result = s.result := rfl
@[simp] theorem absorbJk_c1 (b : U8) (s : State) : (absorbJk b s).c1 = s.c1 := rfl
@[simp] theorem absorbJk_c2 (b : U8) (s : State) : (absorbJk b s).c2 = s.c2 := rfl
@[simp] theorem absorbJk_h (b : U8) (s : State) : (absorbJk b s).h = jkByte (len32 s) s.h b := rfl
@[simp] theorem absorbJk_h1l (b : U8) (s : State) : (absorbJk b s).h1l = s.h1l := rfl
@[simp] theorem absorbJk_hv (b : U8) (s : State) : (absorbJk b s).hv = s.hv := rfl
@[simp] theorem absorbJk_idx (b : U8) (s : State) : (absorbJk b s).idx = s.idx := rfl
@[simp] theorem absorbJk_len (b : U8) (s : State) : (absorbJk b s).len = s.len := rfl
@[simp] theorem absorbJk_opl (b : U8) (s : State) : (absorbJk b s).opl = s.opl := rfl
@[simp] theorem absorbJk_pass (b : U8) (s : State) : (absorbJk b s).pass = s.pass := rfl
@[simp] theorem absorbJk_buf (b : U8) (s : State) : (absorbJk b s).buf = s.buf := rfl
@[simp] theorem absorbJk_agenda (b : U8) (s : State) : (absorbJk b s).agenda = s.agenda := rfl
@[simp] theorem absorbJk_readData (b : U8) (s : State) : (absorbJk b s).readData = s.readData := rfl
@[simp] theorem absorbJk_drawn (b : U8) (s : State) : (absorbJk b s).drawn = s.drawn := rfl

@[simp] theorem absorbFn_arg (b : U8) (s : State) : (absorbFn b s).arg = s.arg := rfl
@[simp] theorem absorbFn_cmd (b : U8) (s : State) : (absorbFn b s).cmd = s.cmd := rfl
@[simp] theorem absorbFn_phase (b : U8) (s : State) : (absorbFn b s).phase = s.phase := rfl
@[simp] theorem absorbFn_ecode (b : U8) (s : State) : (absorbFn b s).ecode = s.ecode := rfl
@[simp] theorem absorbFn_result (b : U8) (s : State) : (absorbFn b s).result = s.result := rfl
@[simp] theorem absorbFn_c1 (b : U8) (s : State) : (absorbFn b s).c1 = s.c1 := rfl
@[simp] theorem absorbFn_c2 (b : U8) (s : State) : (absorbFn b s).c2 = s.c2 := rfl
@[simp] theorem absorbFn_h (b : U8) (s : State) : (absorbFn b s).h = s.h := rfl
@[simp] theorem absorbFn_h1l (b : U8) (s : State) : (absorbFn b s).h1l = s.h1l := rfl
@[simp] theorem absorbFn_hv (b : U8) (s : State) : (absorbFn b s).hv = fnvByte s.hv b := rfl
@[simp] theorem absorbFn_idx (b : U8) (s : State) : (absorbFn b s).idx = s.idx := rfl
@[simp] theorem absorbFn_len (b : U8) (s : State) : (absorbFn b s).len = s.len := rfl
@[simp] theorem absorbFn_opl (b : U8) (s : State) : (absorbFn b s).opl = s.opl := rfl
@[simp] theorem absorbFn_pass (b : U8) (s : State) : (absorbFn b s).pass = s.pass := rfl
@[simp] theorem absorbFn_buf (b : U8) (s : State) : (absorbFn b s).buf = s.buf := rfl
@[simp] theorem absorbFn_agenda (b : U8) (s : State) : (absorbFn b s).agenda = s.agenda := rfl
@[simp] theorem absorbFn_readData (b : U8) (s : State) : (absorbFn b s).readData = s.readData := rfl
@[simp] theorem absorbFn_drawn (b : U8) (s : State) : (absorbFn b s).drawn = s.drawn := rfl

@[simp] theorem releaseCk_arg (s : State) : (releaseCk s).arg = s.arg := rfl
@[simp] theorem releaseCk_cmd (s : State) : (releaseCk s).cmd = s.cmd := rfl
@[simp] theorem releaseCk_phase (s : State) : (releaseCk s).phase = s.phase := rfl
@[simp] theorem releaseCk_ecode (s : State) : (releaseCk s).ecode = s.ecode := rfl
@[simp] theorem releaseCk_result (s : State) : (releaseCk s).result = s.result := rfl
@[simp] theorem releaseCk_c1 (s : State) : (releaseCk s).c1 = (Config.unspecified s.drawn).c1 := rfl
@[simp] theorem releaseCk_c2 (s : State) : (releaseCk s).c2 = (Config.unspecified s.drawn).c2 := rfl
@[simp] theorem releaseCk_h (s : State) : (releaseCk s).h = s.h := rfl
@[simp] theorem releaseCk_h1l (s : State) : (releaseCk s).h1l = s.h1l := rfl
@[simp] theorem releaseCk_hv (s : State) : (releaseCk s).hv = s.hv := rfl
@[simp] theorem releaseCk_idx (s : State) : (releaseCk s).idx = s.idx := rfl
@[simp] theorem releaseCk_len (s : State) : (releaseCk s).len = s.len := rfl
@[simp] theorem releaseCk_opl (s : State) : (releaseCk s).opl = s.opl := rfl
@[simp] theorem releaseCk_pass (s : State) : (releaseCk s).pass = s.pass := rfl
@[simp] theorem releaseCk_buf (s : State) : (releaseCk s).buf = s.buf := rfl
@[simp] theorem releaseCk_agenda (s : State) : (releaseCk s).agenda = s.agenda := rfl
@[simp] theorem releaseCk_readData (s : State) : (releaseCk s).readData = s.readData := rfl
@[simp] theorem releaseCk_drawn (s : State) : (releaseCk s).drawn = s.drawn + 1 := rfl

@[simp] theorem releaseJk_arg (s : State) : (releaseJk s).arg = s.arg := rfl
@[simp] theorem releaseJk_cmd (s : State) : (releaseJk s).cmd = s.cmd := rfl
@[simp] theorem releaseJk_phase (s : State) : (releaseJk s).phase = s.phase := rfl
@[simp] theorem releaseJk_ecode (s : State) : (releaseJk s).ecode = s.ecode := rfl
@[simp] theorem releaseJk_result (s : State) : (releaseJk s).result = s.result := rfl
@[simp] theorem releaseJk_c1 (s : State) : (releaseJk s).c1 = s.c1 := rfl
@[simp] theorem releaseJk_c2 (s : State) : (releaseJk s).c2 = s.c2 := rfl
@[simp] theorem releaseJk_h (s : State) : (releaseJk s).h = (Config.unspecified s.drawn).h := rfl
@[simp] theorem releaseJk_h1l (s : State) : (releaseJk s).h1l = (Config.unspecified s.drawn).h1l := rfl
@[simp] theorem releaseJk_hv (s : State) : (releaseJk s).hv = s.hv := rfl
@[simp] theorem releaseJk_idx (s : State) : (releaseJk s).idx = s.idx := rfl
@[simp] theorem releaseJk_len (s : State) : (releaseJk s).len = s.len := rfl
@[simp] theorem releaseJk_opl (s : State) : (releaseJk s).opl = s.opl := rfl
@[simp] theorem releaseJk_pass (s : State) : (releaseJk s).pass = s.pass := rfl
@[simp] theorem releaseJk_buf (s : State) : (releaseJk s).buf = s.buf := rfl
@[simp] theorem releaseJk_agenda (s : State) : (releaseJk s).agenda = s.agenda := rfl
@[simp] theorem releaseJk_readData (s : State) : (releaseJk s).readData = s.readData := rfl
@[simp] theorem releaseJk_drawn (s : State) : (releaseJk s).drawn = s.drawn + 1 := rfl

@[simp] theorem releaseFn_arg (s : State) : (releaseFn s).arg = s.arg := rfl
@[simp] theorem releaseFn_cmd (s : State) : (releaseFn s).cmd = s.cmd := rfl
@[simp] theorem releaseFn_phase (s : State) : (releaseFn s).phase = s.phase := rfl
@[simp] theorem releaseFn_ecode (s : State) : (releaseFn s).ecode = s.ecode := rfl
@[simp] theorem releaseFn_result (s : State) : (releaseFn s).result = s.result := rfl
@[simp] theorem releaseFn_c1 (s : State) : (releaseFn s).c1 = s.c1 := rfl
@[simp] theorem releaseFn_c2 (s : State) : (releaseFn s).c2 = s.c2 := rfl
@[simp] theorem releaseFn_h (s : State) : (releaseFn s).h = s.h := rfl
@[simp] theorem releaseFn_h1l (s : State) : (releaseFn s).h1l = s.h1l := rfl
@[simp] theorem releaseFn_hv (s : State) : (releaseFn s).hv = (Config.unspecified s.drawn).hv := rfl
@[simp] theorem releaseFn_idx (s : State) : (releaseFn s).idx = s.idx := rfl
@[simp] theorem releaseFn_len (s : State) : (releaseFn s).len = s.len := rfl
@[simp] theorem releaseFn_opl (s : State) : (releaseFn s).opl = s.opl := rfl
@[simp] theorem releaseFn_pass (s : State) : (releaseFn s).pass = s.pass := rfl
@[simp] theorem releaseFn_buf (s : State) : (releaseFn s).buf = s.buf := rfl
@[simp] theorem releaseFn_agenda (s : State) : (releaseFn s).agenda = s.agenda := rfl
@[simp] theorem releaseFn_readData (s : State) : (releaseFn s).readData = s.readData := rfl
@[simp] theorem releaseFn_drawn (s : State) : (releaseFn s).drawn = s.drawn + 1 := rfl

@[simp] theorem startSecondPass_arg (s : State) : (startSecondPass s).arg = s.arg := rfl
@[simp] theorem startSecondPass_cmd (s : State) : (startSecondPass s).cmd = s.cmd := rfl
@[simp] theorem startSecondPass_phase (s : State) : (startSecondPass s).phase = s.phase := rfl
@[simp] theorem startSecondPass_ecode (s : State) : (startSecondPass s).ecode = s.ecode := rfl
@[simp] theorem startSecondPass_result (s : State) : (startSecondPass s).result = s.result := rfl
@[simp] theorem startSecondPass_c1 (s : State) : (startSecondPass s).c1 = s.c1 := rfl
@[simp] theorem startSecondPass_c2 (s : State) : (startSecondPass s).c2 = s.c2 := rfl
@[simp] theorem startSecondPass_h (s : State) : (startSecondPass s).h = jkFinal s.h (len32 s) ^^^ Config.jkReseed := rfl
@[simp] theorem startSecondPass_h1l (s : State) : (startSecondPass s).h1l = jkFinal s.h (len32 s) := rfl
@[simp] theorem startSecondPass_hv (s : State) : (startSecondPass s).hv = s.hv := rfl
@[simp] theorem startSecondPass_idx (s : State) : (startSecondPass s).idx = 0 := rfl
@[simp] theorem startSecondPass_len (s : State) : (startSecondPass s).len = s.len := rfl
@[simp] theorem startSecondPass_opl (s : State) : (startSecondPass s).opl = s.opl := rfl
@[simp] theorem startSecondPass_pass (s : State) : (startSecondPass s).pass = true := rfl
@[simp] theorem startSecondPass_buf (s : State) : (startSecondPass s).buf = s.buf := rfl
@[simp] theorem startSecondPass_agenda (s : State) : (startSecondPass s).agenda = s.agenda := rfl
@[simp] theorem startSecondPass_readData (s : State) : (startSecondPass s).readData = s.readData := rfl
@[simp] theorem startSecondPass_drawn (s : State) : (startSecondPass s).drawn = s.drawn := rfl

@[simp] theorem latchCmd_arg (w : U16) (s : State) : (latchCmd w s).arg = s.arg := rfl
@[simp] theorem latchCmd_cmd (w : U16) (s : State) : (latchCmd w s).cmd = w := rfl
@[simp] theorem latchCmd_phase (w : U16) (s : State) : (latchCmd w s).phase = s.phase := rfl
@[simp] theorem latchCmd_ecode (w : U16) (s : State) : (latchCmd w s).ecode = s.ecode := rfl
@[simp] theorem latchCmd_result (w : U16) (s : State) : (latchCmd w s).result = s.result := rfl
@[simp] theorem latchCmd_c1 (w : U16) (s : State) : (latchCmd w s).c1 = s.c1 := rfl
@[simp] theorem latchCmd_c2 (w : U16) (s : State) : (latchCmd w s).c2 = s.c2 := rfl
@[simp] theorem latchCmd_h (w : U16) (s : State) : (latchCmd w s).h = s.h := rfl
@[simp] theorem latchCmd_h1l (w : U16) (s : State) : (latchCmd w s).h1l = s.h1l := rfl
@[simp] theorem latchCmd_hv (w : U16) (s : State) : (latchCmd w s).hv = s.hv := rfl
@[simp] theorem latchCmd_idx (w : U16) (s : State) : (latchCmd w s).idx = s.idx := rfl
@[simp] theorem latchCmd_len (w : U16) (s : State) : (latchCmd w s).len = s.len := rfl
@[simp] theorem latchCmd_opl (w : U16) (s : State) : (latchCmd w s).opl = s.opl := rfl
@[simp] theorem latchCmd_pass (w : U16) (s : State) : (latchCmd w s).pass = s.pass := rfl
@[simp] theorem latchCmd_buf (w : U16) (s : State) : (latchCmd w s).buf = s.buf := rfl
@[simp] theorem latchCmd_agenda (w : U16) (s : State) : (latchCmd w s).agenda = s.agenda := rfl
@[simp] theorem latchCmd_readData (w : U16) (s : State) : (latchCmd w s).readData = s.readData := rfl
@[simp] theorem latchCmd_drawn (w : U16) (s : State) : (latchCmd w s).drawn = s.drawn := rfl

@[simp] theorem latchArg_arg (v : BitVec Config.lenw) (s : State) : (latchArg v s).arg = v := rfl
@[simp] theorem latchArg_cmd (v : BitVec Config.lenw) (s : State) : (latchArg v s).cmd = s.cmd := rfl
@[simp] theorem latchArg_phase (v : BitVec Config.lenw) (s : State) : (latchArg v s).phase = s.phase := rfl
@[simp] theorem latchArg_ecode (v : BitVec Config.lenw) (s : State) : (latchArg v s).ecode = s.ecode := rfl
@[simp] theorem latchArg_result (v : BitVec Config.lenw) (s : State) : (latchArg v s).result = s.result := rfl
@[simp] theorem latchArg_c1 (v : BitVec Config.lenw) (s : State) : (latchArg v s).c1 = s.c1 := rfl
@[simp] theorem latchArg_c2 (v : BitVec Config.lenw) (s : State) : (latchArg v s).c2 = s.c2 := rfl
@[simp] theorem latchArg_h (v : BitVec Config.lenw) (s : State) : (latchArg v s).h = s.h := rfl
@[simp] theorem latchArg_h1l (v : BitVec Config.lenw) (s : State) : (latchArg v s).h1l = s.h1l := rfl
@[simp] theorem latchArg_hv (v : BitVec Config.lenw) (s : State) : (latchArg v s).hv = s.hv := rfl
@[simp] theorem latchArg_idx (v : BitVec Config.lenw) (s : State) : (latchArg v s).idx = s.idx := rfl
@[simp] theorem latchArg_len (v : BitVec Config.lenw) (s : State) : (latchArg v s).len = s.len := rfl
@[simp] theorem latchArg_opl (v : BitVec Config.lenw) (s : State) : (latchArg v s).opl = s.opl := rfl
@[simp] theorem latchArg_pass (v : BitVec Config.lenw) (s : State) : (latchArg v s).pass = s.pass := rfl
@[simp] theorem latchArg_buf (v : BitVec Config.lenw) (s : State) : (latchArg v s).buf = s.buf := rfl
@[simp] theorem latchArg_agenda (v : BitVec Config.lenw) (s : State) : (latchArg v s).agenda = s.agenda := rfl
@[simp] theorem latchArg_readData (v : BitVec Config.lenw) (s : State) : (latchArg v s).readData = s.readData := rfl
@[simp] theorem latchArg_drawn (v : BitVec Config.lenw) (s : State) : (latchArg v s).drawn = s.drawn := rfl

@[simp] theorem storeByte_arg (i : Nat) (b : U8) (s : State) : (storeByte i b s).arg = s.arg := rfl
@[simp] theorem storeByte_cmd (i : Nat) (b : U8) (s : State) : (storeByte i b s).cmd = s.cmd := rfl
@[simp] theorem storeByte_phase (i : Nat) (b : U8) (s : State) : (storeByte i b s).phase = s.phase := rfl
@[simp] theorem storeByte_ecode (i : Nat) (b : U8) (s : State) : (storeByte i b s).ecode = s.ecode := rfl
@[simp] theorem storeByte_result (i : Nat) (b : U8) (s : State) : (storeByte i b s).result = s.result := rfl
@[simp] theorem storeByte_c1 (i : Nat) (b : U8) (s : State) : (storeByte i b s).c1 = s.c1 := rfl
@[simp] theorem storeByte_c2 (i : Nat) (b : U8) (s : State) : (storeByte i b s).c2 = s.c2 := rfl
@[simp] theorem storeByte_h (i : Nat) (b : U8) (s : State) : (storeByte i b s).h = s.h := rfl
@[simp] theorem storeByte_h1l (i : Nat) (b : U8) (s : State) : (storeByte i b s).h1l = s.h1l := rfl
@[simp] theorem storeByte_hv (i : Nat) (b : U8) (s : State) : (storeByte i b s).hv = s.hv := rfl
@[simp] theorem storeByte_idx (i : Nat) (b : U8) (s : State) : (storeByte i b s).idx = s.idx := rfl
@[simp] theorem storeByte_len (i : Nat) (b : U8) (s : State) : (storeByte i b s).len = s.len := rfl
@[simp] theorem storeByte_opl (i : Nat) (b : U8) (s : State) : (storeByte i b s).opl = s.opl := rfl
@[simp] theorem storeByte_pass (i : Nat) (b : U8) (s : State) : (storeByte i b s).pass = s.pass := rfl
@[simp] theorem storeByte_buf (i : Nat) (b : U8) (s : State) : (storeByte i b s).buf = Memory.write s.buf i b := rfl
@[simp] theorem storeByte_agenda (i : Nat) (b : U8) (s : State) : (storeByte i b s).agenda = s.agenda := rfl
@[simp] theorem storeByte_readData (i : Nat) (b : U8) (s : State) : (storeByte i b s).readData = s.readData := rfl
@[simp] theorem storeByte_drawn (i : Nat) (b : U8) (s : State) : (storeByte i b s).drawn = s.drawn := rfl

@[simp] theorem answer_arg (v : ReadValue) (s : State) : (answer v s).arg = s.arg := rfl
@[simp] theorem answer_cmd (v : ReadValue) (s : State) : (answer v s).cmd = s.cmd := rfl
@[simp] theorem answer_phase (v : ReadValue) (s : State) : (answer v s).phase = s.phase := rfl
@[simp] theorem answer_ecode (v : ReadValue) (s : State) : (answer v s).ecode = s.ecode := rfl
@[simp] theorem answer_result (v : ReadValue) (s : State) : (answer v s).result = s.result := rfl
@[simp] theorem answer_c1 (v : ReadValue) (s : State) : (answer v s).c1 = s.c1 := rfl
@[simp] theorem answer_c2 (v : ReadValue) (s : State) : (answer v s).c2 = s.c2 := rfl
@[simp] theorem answer_h (v : ReadValue) (s : State) : (answer v s).h = s.h := rfl
@[simp] theorem answer_h1l (v : ReadValue) (s : State) : (answer v s).h1l = s.h1l := rfl
@[simp] theorem answer_hv (v : ReadValue) (s : State) : (answer v s).hv = s.hv := rfl
@[simp] theorem answer_idx (v : ReadValue) (s : State) : (answer v s).idx = s.idx := rfl
@[simp] theorem answer_len (v : ReadValue) (s : State) : (answer v s).len = s.len := rfl
@[simp] theorem answer_opl (v : ReadValue) (s : State) : (answer v s).opl = s.opl := rfl
@[simp] theorem answer_pass (v : ReadValue) (s : State) : (answer v s).pass = s.pass := rfl
@[simp] theorem answer_buf (v : ReadValue) (s : State) : (answer v s).buf = s.buf := rfl
@[simp] theorem answer_agenda (v : ReadValue) (s : State) : (answer v s).agenda = s.agenda := rfl
@[simp] theorem answer_readData (v : ReadValue) (s : State) : (answer v s).readData = some v := rfl
@[simp] theorem answer_drawn (v : ReadValue) (s : State) : (answer v s).drawn = s.drawn := rfl

@[simp] theorem answerUnspecified_arg (s : State) : (answerUnspecified s).arg = s.arg := rfl
@[simp] theorem answerUnspecified_cmd (s : State) : (answerUnspecified s).cmd = s.cmd := rfl
@[simp] theorem answerUnspecified_phase (s : State) : (answerUnspecified s).phase = s.phase := rfl
@[simp] theorem answerUnspecified_ecode (s : State) : (answerUnspecified s).ecode = s.ecode := rfl
@[simp] theorem answerUnspecified_result (s : State) : (answerUnspecified s).result = s.result := rfl
@[simp] theorem answerUnspecified_c1 (s : State) : (answerUnspecified s).c1 = s.c1 := rfl
@[simp] theorem answerUnspecified_c2 (s : State) : (answerUnspecified s).c2 = s.c2 := rfl
@[simp] theorem answerUnspecified_h (s : State) : (answerUnspecified s).h = s.h := rfl
@[simp] theorem answerUnspecified_h1l (s : State) : (answerUnspecified s).h1l = s.h1l := rfl
@[simp] theorem answerUnspecified_hv (s : State) : (answerUnspecified s).hv = s.hv := rfl
@[simp] theorem answerUnspecified_idx (s : State) : (answerUnspecified s).idx = s.idx := rfl
@[simp] theorem answerUnspecified_len (s : State) : (answerUnspecified s).len = s.len := rfl
@[simp] theorem answerUnspecified_opl (s : State) : (answerUnspecified s).opl = s.opl := rfl
@[simp] theorem answerUnspecified_pass (s : State) : (answerUnspecified s).pass = s.pass := rfl
@[simp] theorem answerUnspecified_buf (s : State) : (answerUnspecified s).buf = s.buf := rfl
@[simp] theorem answerUnspecified_agenda (s : State) : (answerUnspecified s).agenda = s.agenda := rfl
@[simp] theorem answerUnspecified_readData (s : State) : (answerUnspecified s).readData =
    some (.result (Config.unspecified s.drawn).result) := rfl
@[simp] theorem answerUnspecified_drawn (s : State) : (answerUnspecified s).drawn = s.drawn + 1 := rfl

@[simp] theorem withAgenda_arg (rest : List Turn) (s : State) : (withAgenda rest s).arg = s.arg := rfl
@[simp] theorem withAgenda_cmd (rest : List Turn) (s : State) : (withAgenda rest s).cmd = s.cmd := rfl
@[simp] theorem withAgenda_phase (rest : List Turn) (s : State) : (withAgenda rest s).phase = s.phase := rfl
@[simp] theorem withAgenda_ecode (rest : List Turn) (s : State) : (withAgenda rest s).ecode = s.ecode := rfl
@[simp] theorem withAgenda_result (rest : List Turn) (s : State) : (withAgenda rest s).result = s.result := rfl
@[simp] theorem withAgenda_c1 (rest : List Turn) (s : State) : (withAgenda rest s).c1 = s.c1 := rfl
@[simp] theorem withAgenda_c2 (rest : List Turn) (s : State) : (withAgenda rest s).c2 = s.c2 := rfl
@[simp] theorem withAgenda_h (rest : List Turn) (s : State) : (withAgenda rest s).h = s.h := rfl
@[simp] theorem withAgenda_h1l (rest : List Turn) (s : State) : (withAgenda rest s).h1l = s.h1l := rfl
@[simp] theorem withAgenda_hv (rest : List Turn) (s : State) : (withAgenda rest s).hv = s.hv := rfl
@[simp] theorem withAgenda_idx (rest : List Turn) (s : State) : (withAgenda rest s).idx = s.idx := rfl
@[simp] theorem withAgenda_len (rest : List Turn) (s : State) : (withAgenda rest s).len = s.len := rfl
@[simp] theorem withAgenda_opl (rest : List Turn) (s : State) : (withAgenda rest s).opl = s.opl := rfl
@[simp] theorem withAgenda_pass (rest : List Turn) (s : State) : (withAgenda rest s).pass = s.pass := rfl
@[simp] theorem withAgenda_buf (rest : List Turn) (s : State) : (withAgenda rest s).buf = s.buf := rfl
@[simp] theorem withAgenda_agenda (rest : List Turn) (s : State) : (withAgenda rest s).agenda = rest := rfl
@[simp] theorem withAgenda_readData (rest : List Turn) (s : State) : (withAgenda rest s).readData = s.readData := rfl
@[simp] theorem withAgenda_drawn (rest : List Turn) (s : State) : (withAgenda rest s).drawn = s.drawn := rfl

@[simp] theorem poll_arg (gaps : List Nat) (s : State) : (poll gaps s).arg = s.arg := rfl
@[simp] theorem poll_cmd (gaps : List Nat) (s : State) : (poll gaps s).cmd = s.cmd := rfl
@[simp] theorem poll_phase (gaps : List Nat) (s : State) : (poll gaps s).phase = s.phase := rfl
@[simp] theorem poll_ecode (gaps : List Nat) (s : State) : (poll gaps s).ecode = s.ecode := rfl
@[simp] theorem poll_result (gaps : List Nat) (s : State) : (poll gaps s).result = s.result := rfl
@[simp] theorem poll_c1 (gaps : List Nat) (s : State) : (poll gaps s).c1 = s.c1 := rfl
@[simp] theorem poll_c2 (gaps : List Nat) (s : State) : (poll gaps s).c2 = s.c2 := rfl
@[simp] theorem poll_h (gaps : List Nat) (s : State) : (poll gaps s).h = s.h := rfl
@[simp] theorem poll_h1l (gaps : List Nat) (s : State) : (poll gaps s).h1l = s.h1l := rfl
@[simp] theorem poll_hv (gaps : List Nat) (s : State) : (poll gaps s).hv = s.hv := rfl
@[simp] theorem poll_idx (gaps : List Nat) (s : State) : (poll gaps s).idx = s.idx := rfl
@[simp] theorem poll_len (gaps : List Nat) (s : State) : (poll gaps s).len = s.len := rfl
@[simp] theorem poll_opl (gaps : List Nat) (s : State) : (poll gaps s).opl = s.opl := rfl
@[simp] theorem poll_pass (gaps : List Nat) (s : State) : (poll gaps s).pass = s.pass := rfl
@[simp] theorem poll_buf (gaps : List Nat) (s : State) : (poll gaps s).buf = s.buf := rfl
@[simp] theorem poll_agenda (gaps : List Nat) (s : State) :
    (poll gaps s).agenda = afterPoll gaps s.phase ++ s.agenda := rfl
@[simp] theorem poll_readData (gaps : List Nat) (s : State) :
    (poll gaps s).readData = some (.status (statusWord s)) := rfl
@[simp] theorem poll_drawn (gaps : List Nat) (s : State) : (poll gaps s).drawn = s.drawn := rfl

end Sys2Proof.Machine
end

