-- ==== Sys2Proof/Laws/Absorb.lean ====
section
/-! SUPPORT. What the byte step of whichever engine `OPL` names leaves unchanged. -/

namespace Sys2Proof.Machine

@[simp] theorem absorb_arg (b : U8) (s : State) : (absorb b s).arg = s.arg := by
  unfold absorb; split <;> simp
@[simp] theorem absorb_cmd (b : U8) (s : State) : (absorb b s).cmd = s.cmd := by
  unfold absorb; split <;> simp
@[simp] theorem absorb_phase (b : U8) (s : State) : (absorb b s).phase = s.phase := by
  unfold absorb; split <;> simp
@[simp] theorem absorb_ecode (b : U8) (s : State) : (absorb b s).ecode = s.ecode := by
  unfold absorb; split <;> simp
@[simp] theorem absorb_result (b : U8) (s : State) : (absorb b s).result = s.result := by
  unfold absorb; split <;> simp
@[simp] theorem absorb_h1l (b : U8) (s : State) : (absorb b s).h1l = s.h1l := by
  unfold absorb; split <;> simp
@[simp] theorem absorb_idx (b : U8) (s : State) : (absorb b s).idx = s.idx := by
  unfold absorb; split <;> simp
@[simp] theorem absorb_len (b : U8) (s : State) : (absorb b s).len = s.len := by
  unfold absorb; split <;> simp
@[simp] theorem absorb_opl (b : U8) (s : State) : (absorb b s).opl = s.opl := by
  unfold absorb; split <;> simp
@[simp] theorem absorb_pass (b : U8) (s : State) : (absorb b s).pass = s.pass := by
  unfold absorb; split <;> simp
@[simp] theorem absorb_buf (b : U8) (s : State) : (absorb b s).buf = s.buf := by
  unfold absorb; split <;> simp
@[simp] theorem absorb_agenda (b : U8) (s : State) : (absorb b s).agenda = s.agenda := by
  unfold absorb; split <;> simp
@[simp] theorem absorb_readData (b : U8) (s : State) : (absorb b s).readData = s.readData := by
  unfold absorb; split <;> simp
@[simp] theorem absorb_drawn (b : U8) (s : State) : (absorb b s).drawn = s.drawn := by
  unfold absorb; split <;> simp

end Sys2Proof.Machine
end

