-- ==== Sys2Proof/Laws/Config.lean ====
section
/-! SUPPORT. What may be used of `LENW` (R8): it is positive, so a length of 1 can be written. -/

namespace Sys2Proof

theorem Config.lenw_pos : 0 < Config.lenw := Nat.lt_of_lt_of_le Nat.one_pos (Nat.le_max_left _ _)

theorem Config.one_lt_two_pow_lenw : 1 < 2 ^ Config.lenw := Nat.one_lt_two_pow Config.lenw_pos.ne'

@[simp] theorem Config.toNat_one : (1 : BitVec Config.lenw).toNat = 1 := by
  show (BitVec.ofNat Config.lenw 1).toNat = 1
  rw [BitVec.toNat_ofNat, Nat.mod_eq_of_lt Config.one_lt_two_pow_lenw]

@[simp] theorem Config.one_setWidth : (1 : BitVec Config.lenw).setWidth 32 = 1 := by
  apply BitVec.eq_of_toNat_eq; rw [BitVec.toNat_setWidth, Config.toNat_one]; rfl

@[simp] theorem Config.zero_setWidth : (0 : BitVec Config.lenw).setWidth 32 = 0 := by
  apply BitVec.eq_of_toNat_eq; rw [BitVec.toNat_setWidth]; rfl

theorem Config.zero_lt_one : (0 : BitVec Config.lenw) < 1 := by
  rw [BitVec.lt_def, Config.toNat_one]; simp

theorem Config.one_ne_zero : (1 : BitVec Config.lenw) ≠ 0 := fun h => by
  have h := congrArg BitVec.toNat h
  rw [Config.toNat_one] at h
  exact absurd h (by simp)

end Sys2Proof
end

