-- ==== Sys2Proof/Laws/Decode.lean ====
section
/-! SUPPORT. The field codes of the command format, each read back from its own encoding. -/

namespace Sys2Proof

@[simp] theorem Fields.ofWord_toWord (f : Fields) : Fields.ofWord f.toWord = f := by
  obtain ⟨a, w, p, r, x⟩ := f
  simp only [Fields.ofWord, Fields.toWord, Fields.mk.injEq]
  refine ⟨?_, ?_, ?_, ?_, ?_⟩ <;> ext i hi <;>
    simp only [BitVec.getElem_extractLsb', BitVec.getLsbD_append] <;> interval_cases i <;>
    simp [BitVec.getLsbD_eq_getElem]

@[simp] theorem Alg.ofAsel_asel (a : Alg) : Alg.ofAsel a.asel = some a := by cases a <;> rfl

@[simp] theorem Width.ofWsel_wsel (w : Width) : Width.ofWsel w.wsel = some w := by cases w <;> rfl

@[simp] theorem Presence.ofBit_bit (p : Presence) : Presence.ofBit p.bit = p := by cases p <;> rfl

theorem Alg.asel_of_ofAsel {v : BitVec 2} {a : Alg} (h : Alg.ofAsel v = some a) : a.asel = v := by
  revert v a; decide

theorem Width.wsel_of_ofWsel {v : BitVec 2} {w : Width} (h : Width.ofWsel v = some w) : w.wsel = v := by
  revert v w; decide

@[simp] theorem Presence.bit_ofBit (b : BitVec 1) : (Presence.ofBit b).bit = b := by
  revert b; decide

end Sys2Proof
end

