-- ==== Sys2Proof/Laws/Memory.lean ====
section
/-! SUPPORT. The laws of the buffer space: a store is read back, it leaves every other cell alone, and it keeps the
canonical form. -/

namespace Sys2Proof.Machine

theorem Memory.read_write_self (m : Memory) (a : Nat) (b : U8) : Memory.read (Memory.write m a b) a = some b := by
  induction m with
  | nil => simp [Memory.write, Memory.read]
  | cons c m ih =>
    obtain ⟨k, v⟩ := c
    simp only [Memory.write]
    split
    · simp [Memory.read]
    · split
      · simp [Memory.read]
      · next _ h => simpa [Memory.read, Ne.symm h] using ih

theorem Memory.read_write_other (m : Memory) {a a' : Nat} (b : U8) (h : a' ≠ a) :
    Memory.read (Memory.write m a b) a' = Memory.read m a' := by
  induction m with
  | nil => simp [Memory.write, Memory.read, Ne.symm h]
  | cons c m ih =>
    obtain ⟨k, v⟩ := c
    simp only [Memory.write]
    split
    · simp [Memory.read, Ne.symm h]
    · split
      · next _ hk => subst hk; simp [Memory.read, Ne.symm h]
      · simp only [Memory.read, ih]

/-- A store above `k` into a memory whose indices are all above `k` leaves them all above `k`. -/
theorem Memory.write_all_above (m : Memory) {k a : Nat} (b : U8) (hka : k < a)
    (hm : m.all (fun c => decide (k < c.1)) = true) :
    (Memory.write m a b).all (fun c => decide (k < c.1)) = true := by
  induction m with
  | nil => simpa [Memory.write] using hka
  | cons c m ih =>
    obtain ⟨j, v⟩ := c
    simp only [List.all_cons, Bool.and_eq_true, decide_eq_true_eq] at hm
    simp only [Memory.write]
    split
    · simp only [List.all_cons, Bool.and_eq_true, decide_eq_true_eq]
      exact ⟨hka, hm⟩
    · split
      · simp only [List.all_cons, Bool.and_eq_true, decide_eq_true_eq]
        exact ⟨hka, hm.2⟩
      · simp only [List.all_cons, Bool.and_eq_true, decide_eq_true_eq]
        exact ⟨hm.1, ih hm.2⟩

/-- A store inside the space keeps the canonical form. -/
theorem Memory.write_wf (m : Memory) {a : Nat} (b : U8) (ha : a < 2 ^ Config.lenw) (hm : Memory.wf m = true) :
    Memory.wf (Memory.write m a b) = true := by
  induction m with
  | nil => simpa [Memory.write, Memory.wf] using ha
  | cons c m ih =>
    obtain ⟨k, v⟩ := c
    simp only [Memory.wf, Bool.and_eq_true, decide_eq_true_eq] at hm
    obtain ⟨⟨hk, hall⟩, hwf⟩ := hm
    simp only [Memory.write]
    split
    · next hak =>
      simp only [Memory.wf, List.all_cons, Bool.and_eq_true, decide_eq_true_eq]
      refine ⟨⟨ha, hak, ?_⟩, ⟨hk, hall⟩, hwf⟩
      simp only [List.all_eq_true, decide_eq_true_eq] at hall ⊢
      exact fun c hc => Nat.lt_trans hak (hall c hc)
    · split
      · next _ hak =>
        subst hak
        simp only [Memory.wf, Bool.and_eq_true, decide_eq_true_eq]
        exact ⟨⟨hk, hall⟩, hwf⟩
      · next h1 h2 =>
        simp only [Memory.wf, Bool.and_eq_true, decide_eq_true_eq]
        exact ⟨⟨hk, Memory.write_all_above m b (by omega) hall⟩, ih hwf⟩

/-- The memory of the reset state has the canonical form. -/
theorem reset_buf_wf : Memory.wf State.reset.buf = true := rfl

end Sys2Proof.Machine
end

