-- ==== Sys2Proof/Laws/Ops.lean ====
section
/-! SUPPORT. For each shared operation, once, everything it can do: what later proofs cite instead of unfolding it. -/

namespace Sys2Proof.Machine

theorem issue_of_ready {s : State} (word : U16) (effect : State → State) (h : Ready s) :
    issue word effect s = .next (effect (latchCmd word s)) := by
  rcases h with h | h <;> simp [issue, h]

theorem issue_of_busy {s : State} (word : U16) (effect : State → State) (h : s.phase = .busy) :
    issue word effect s = .next (raise .busyViolation s) := by simp [issue, h]

theorem issue_of_error {s : State} (word : U16) (effect : State → State) (h : s.phase = .error) :
    issue word effect s = .next s := by simp [issue, h]

/-- Everything a write of a command word can do: it always completes. -/
theorem issue_cases {word : U16} {effect : State → State} {s : State} {o : Outcome} (h : issue word effect s = o) :
    (Ready s ∧ o = .next (effect (latchCmd word s))) ∨
      (s.phase = .busy ∧ o = .next (raise .busyViolation s)) ∨ (s.phase = .error ∧ o = .next s) := by
  subst h
  cases hp : s.phase
  · exact .inl ⟨.inl hp, issue_of_ready _ _ (.inl hp)⟩
  · exact .inr (.inl ⟨rfl, issue_of_busy _ _ hp⟩)
  · exact .inl ⟨.inr hp, issue_of_ready _ _ (.inr hp)⟩
  · exact .inr (.inr ⟨rfl, issue_of_error _ _ hp⟩)

/-- The effect of each command once its word is latched. -/
def cmdEffect : Instr → State → State
  | .tlkup i => complete ((tableRead i).setWidth 64)
  | .ck16 .absent => complete (presented (absentConst ⟨.ck, .w16⟩))
  | .ck32 .absent => complete (presented (absentConst ⟨.ck, .w32⟩))
  | .ck64 .absent => complete (presented (absentConst ⟨.ck, .w64⟩))
  | .jk16 .absent => complete (presented (absentConst ⟨.jk, .w16⟩))
  | .jk32 .absent => complete (presented (absentConst ⟨.jk, .w32⟩))
  | .jk64 .absent => complete (presented (absentConst ⟨.jk, .w64⟩))
  | .fn16 .absent => complete (presented (absentConst ⟨.fn, .w16⟩))
  | .fn32 .absent => complete (presented (absentConst ⟨.fn, .w32⟩))
  | .fn64 .absent => complete (presented (absentConst ⟨.fn, .w64⟩))
  | .ck16 .present => launch ⟨.ck, .w16⟩ seedCk
  | .ck32 .present => launch ⟨.ck, .w32⟩ seedCk
  | .ck64 .present => launch ⟨.ck, .w64⟩ seedCk
  | .jk16 .present => launch ⟨.jk, .w16⟩ seedJk
  | .jk32 .present => launch ⟨.jk, .w32⟩ seedJk
  | .jk64 .present => launch ⟨.jk, .w64⟩ seedJk
  | .fn16 .present => launch ⟨.fn, .w16⟩ seedFn
  | .fn32 .present => launch ⟨.fn, .w32⟩ seedFn
  | .fn64 .present => launch ⟨.fn, .w64⟩ seedFn

/-- Every command is the write of its own word, with its own effect. -/
theorem exec_eq_issue (i : Instr) (s : State) : exec i s = issue (encode i) (cmdEffect i) s := by
  cases i with
  | tlkup i => rfl
  | ck16 p => cases p <;> rfl
  | ck32 p => cases p <;> rfl
  | ck64 p => cases p <;> rfl
  | jk16 p => cases p <;> rfl
  | jk32 p => cases p <;> rfl
  | jk64 p => cases p <;> rfl
  | fn16 p => cases p <;> rfl
  | fn32 p => cases p <;> rfl
  | fn64 p => cases p <;> rfl

/-- The effect of a command is to end with a result at once or to launch an engine on `ARG` bytes. -/
theorem cmdEffect_cases (i : Instr) :
    (∃ v, cmdEffect i = complete v) ∨ (∃ w, cmdEffect i = launch ⟨.ck, w⟩ seedCk) ∨
      (∃ w, cmdEffect i = launch ⟨.jk, w⟩ seedJk) ∨ (∃ w, cmdEffect i = launch ⟨.fn, w⟩ seedFn) := by
  cases i with
  | tlkup i => exact .inl ⟨_, rfl⟩
  | ck16 p => cases p <;> [exact .inr (.inl ⟨_, rfl⟩); exact .inl ⟨_, rfl⟩]
  | ck32 p => cases p <;> [exact .inr (.inl ⟨_, rfl⟩); exact .inl ⟨_, rfl⟩]
  | ck64 p => cases p <;> [exact .inr (.inl ⟨_, rfl⟩); exact .inl ⟨_, rfl⟩]
  | jk16 p => cases p <;> [exact .inr (.inr (.inl ⟨_, rfl⟩)); exact .inl ⟨_, rfl⟩]
  | jk32 p => cases p <;> [exact .inr (.inr (.inl ⟨_, rfl⟩)); exact .inl ⟨_, rfl⟩]
  | jk64 p => cases p <;> [exact .inr (.inr (.inl ⟨_, rfl⟩)); exact .inl ⟨_, rfl⟩]
  | fn16 p => cases p <;> [exact .inr (.inr (.inr ⟨_, rfl⟩)); exact .inl ⟨_, rfl⟩]
  | fn32 p => cases p <;> [exact .inr (.inr (.inr ⟨_, rfl⟩)); exact .inl ⟨_, rfl⟩]
  | fn64 p => cases p <;> [exact .inr (.inr (.inr ⟨_, rfl⟩)); exact .inl ⟨_, rfl⟩]

/-- Everything `WriteCMD` can do. -/
theorem writeCmd_cases {w : U16} {s : State} {o : Outcome} (h : writeCmd w s = o) :
    (Ready s ∧ ∃ i, decodeWord w = .ok i ∧ o = .next (cmdEffect i (latchCmd (encode i) s))) ∨
      (Ready s ∧ ∃ e, decodeWord w = .error e ∧ o = .next (raise .reservedCommand (latchCmd w s))) ∨
      (s.phase = .busy ∧ o = .next (raise .busyViolation s)) ∨ (s.phase = .error ∧ o = .next s) := by
  unfold writeCmd at h
  split at h
  · next i hd =>
    rw [exec_eq_issue] at h
    rcases issue_cases h with ⟨hr, ho⟩ | hb | he
    · exact .inl ⟨hr, i, hd, ho⟩
    · exact .inr (.inr (.inl hb))
    · exact .inr (.inr (.inr he))
  · next e hd =>
    rcases issue_cases (show issue w (raise .reservedCommand) s = o from h) with ⟨hr, ho⟩ | hb | he
    · exact .inr (.inl ⟨hr, e, hd, ho⟩)
    · exact .inr (.inr (.inl hb))
    · exact .inr (.inr (.inr he))

/-- Everything `WriteARG` can do. -/
theorem writeArg_cases {v : BitVec Config.lenw} {s : State} {o : Outcome} (h : writeArg v s = o) :
    (Ready s ∧ o = .next (latchArg v s)) ∨ (s.phase = .busy ∧ o = .next (raise .busyViolation s)) ∨
      (s.phase = .error ∧ o = .next s) := by
  subst h
  cases hp : s.phase <;> simp [writeArg, Ready, hp]

/-- Everything a host store can do. -/
theorem writeBuf_cases {i : BitVec Config.lenw} {b : U8} {s : State} {o : Outcome} (h : writeBuf i b s = o) :
    (o = .refused .operandChanged ∧ s.phase = .busy ∧ i < s.len ∧ Memory.read s.buf i.toNat ≠ some b) ∨
      (o = .next (storeByte i.toNat b s) ∧
        ¬ (s.phase = .busy ∧ i < s.len ∧ Memory.read s.buf i.toNat ≠ some b)) := by
  subst h
  unfold writeBuf
  split
  · next h => exact .inl ⟨rfl, h⟩
  · next h => exact .inr ⟨rfl, h⟩

/-- Everything `ByteStep` can do. -/
theorem byteStep_cases {s : State} {o : Outcome} (h : byteStep s = o) :
    (∃ b, currentByte s = some b ∧ o = .next (advance (absorb b s))) ∨
      (currentByte s = none ∧ o = .fault .bufferByteMissing) := by
  subst h
  unfold byteStep
  split
  · next b hb => exact .inl ⟨b, hb, rfl⟩
  · next hb => exact .inr ⟨hb, rfl⟩

/-- Everything a turn of the block can do. -/
theorem blockTurn_cases {s : State} {o : Outcome} (h : blockTurn s = o) :
    (s.phase ≠ .busy ∧ o = .next s) ∨ (s.phase = .busy ∧ s.idx < s.len ∧ byteStep s = o) ∨
      (s.phase = .busy ∧ s.idx = s.len ∧ o = .next (finish s)) ∨
      (s.phase = .busy ∧ s.len < s.idx ∧ o = .next s) := by
  subst h
  cases hp : s.phase
  · exact .inl ⟨by simp, by simp [blockTurn, hp]⟩
  · by_cases h1 : s.idx < s.len
    · exact .inr (.inl ⟨rfl, h1, by simp [blockTurn, hp, h1]⟩)
    · by_cases h2 : s.idx = s.len
      · exact .inr (.inr (.inl ⟨rfl, h2, by simp [blockTurn, hp, h2]⟩))
      · exact .inr (.inr (.inr ⟨rfl, by bv_omega, by simp [blockTurn, hp, h1, h2]⟩))
  · exact .inl ⟨by simp, by simp [blockTurn, hp]⟩
  · exact .inl ⟨by simp, by simp [blockTurn, hp]⟩

/-- The turn of the block that is a `ByteStep`. -/
theorem blockTurn_byte {s : State} {b : U8} (hp : s.phase = .busy) (hi : s.idx < s.len)
    (hb : Memory.read s.buf s.idx.toNat = some b) : blockTurn s = .next (advance (absorb b s)) := by
  simp [blockTurn, hp, hi, byteStep, currentByte, hb]

/-- The turn of the block that is a `Finish`. -/
theorem blockTurn_finish {s : State} (hp : s.phase = .busy) (hi : s.idx = s.len) :
    blockTurn s = .next (finish s) := by simp [blockTurn, hp, hi]

/-- Everything `Finish` can do: end with a result, or change to the second pass of `JK64`. -/
theorem finish_cases (s : State) :
    (∃ r, s.opl.alg = .ck ∧ finish s = releaseCk (complete r s)) ∨
      (∃ r, s.opl.alg = .jk ∧ finish s = releaseJk (complete r s)) ∨
      (∃ r, s.opl.alg = .fn ∧ finish s = releaseFn (complete r s)) ∨
      (s.opl = ⟨.jk, .w64⟩ ∧ s.pass = false ∧ s.len ≠ 0 ∧ finish s = startSecondPass s) := by
  obtain ⟨a, w, ho⟩ : ∃ a w, s.opl = ⟨a, w⟩ := ⟨_, _, rfl⟩
  cases a
  · exact .inl ⟨_, by rw [ho], by simp only [finish, ho]; rfl⟩
  · cases w
    · exact .inr (.inl ⟨_, by rw [ho], by simp only [finish, ho, finishJk]; rfl⟩)
    · exact .inr (.inl ⟨_, by rw [ho], by simp only [finish, ho, finishJk]; rfl⟩)
    · cases hpass : s.pass
      · by_cases hl : s.len = 0
        · refine .inr (.inl ⟨presented (jkFinal s.h (len32 s) ++ (0 : U32)), by rw [ho], ?_⟩)
          simp only [finish, ho, finishJk, finishJk64, hpass, if_pos hl]
          rfl
        · refine .inr (.inr (.inr ⟨ho, rfl, hl, ?_⟩))
          simp only [finish, ho, finishJk, finishJk64, hpass, if_neg hl]
          rfl
      · exact .inr (.inl ⟨_, by rw [ho], by simp [finish, ho, finishJk, finishJk64, hpass]; rfl⟩)
  · exact .inr (.inr (.inl ⟨_, by rw [ho], by simp only [finish, ho]; rfl⟩))

theorem step_empty {s : State} (h : s.agenda = []) : step s = blockTurn s := by simp [step, h, takeTurn]

theorem step_turn {s : State} {t : Turn} {rest : List Turn} (h : s.agenda = t :: rest) :
    step s = takeTurn t (withAgenda rest s) := by simp [step, h]

/-- Everything a register read can do: it answers a value, or draws a free one for `RESULT` outside `DONE`. -/
theorem readReg_cases (r : HostReg) (s : State) :
    (∃ v, readReg r s = answer v s) ∨ (r = .result ∧ s.phase ≠ .done ∧ readReg r s = answerUnspecified s) := by
  cases r
  · exact .inl ⟨_, rfl⟩
  · exact .inl ⟨_, rfl⟩
  · exact .inl ⟨_, rfl⟩
  · by_cases hp : s.phase = .done
    · exact .inl ⟨.result s.result, by simp [readReg, hp]⟩
    · exact .inr ⟨rfl, hp, by simp [readReg, hp]⟩

/-- What the host has left to do after a poll: nothing new but block steps and a later poll in `BUSY`, the read of
`RESULT` in `DONE`. -/
theorem mem_afterPoll {gaps : List Nat} {p : Phase} {t : Turn} (h : t ∈ afterPoll gaps p) :
    (p = .busy ∧ (t = .block ∨ t = .await gaps.tail)) ∨ (p = .done ∧ t = .host (.read .result)) := by
  cases p <;> simp only [afterPoll, List.not_mem_nil, List.mem_append, List.mem_singleton] at h
  · exact .inl ⟨rfl, h.imp (fun h => List.eq_of_mem_replicate h) id⟩
  · exact .inr ⟨rfl, h⟩

/-- Everything one step can be: a turn of the block, an access of the host, a poll of the host, or a reset. -/
theorem step_cases {s : State} {o : Outcome} (h : step s = o) :
    (s.agenda = [] ∧ blockTurn s = o) ∨
      ∃ rest,
        (s.agenda = .block :: rest ∧ blockTurn (withAgenda rest s) = o) ∨
          (∃ a, s.agenda = .host a :: rest ∧ hostAccess a (withAgenda rest s) = o) ∨
          (∃ gaps, s.agenda = .await gaps :: rest ∧ o = .next (poll gaps (withAgenda rest s))) ∨
          (s.agenda = .reset :: rest ∧ o = .next (resetBlock (withAgenda rest s))) := by
  cases ha : s.agenda with
  | nil => exact .inl ⟨rfl, by rw [← step_empty ha, h]⟩
  | cons t rest =>
    rw [step_turn ha] at h
    cases t with
    | block => exact .inr ⟨rest, .inl ⟨rfl, h⟩⟩
    | host a => exact .inr ⟨rest, .inr (.inl ⟨a, rfl, h⟩)⟩
    | await gaps => exact .inr ⟨rest, .inr (.inr (.inl ⟨gaps, rfl, h.symm⟩))⟩
    | reset => exact .inr ⟨rest, .inr (.inr (.inr ⟨rfl, h.symm⟩))⟩

end Sys2Proof.Machine
end

