-- ==== Sys2Proof/Laws/PerInstr.lean ====
section
/-! SUPPORT. Facts proved for each instruction separately: the fields of every instruction make a legal word (R64). -/

namespace Sys2Proof.Laws.FieldsLegal

/-- The fields of the instruction's word are legal. -/
def Statement (i : Instr) : Prop := i.fields.legal = true

theorem hash_fields_legal (op : HashOp) (p : Presence) : (HashOp.fields op p).legal = true := by
  rcases op with ⟨a, w⟩; cases a <;> cases w <;> cases p <;> decide

theorem tlkup (i : U8) : Statement (.tlkup i) := by simp [Statement, Instr.fields, Fields.legal, Fields.rsvZero, Fields.isTable]
theorem ck16 (p : Presence) : Statement (.ck16 p) := hash_fields_legal ⟨.ck, .w16⟩ p
theorem ck32 (p : Presence) : Statement (.ck32 p) := hash_fields_legal ⟨.ck, .w32⟩ p
theorem ck64 (p : Presence) : Statement (.ck64 p) := hash_fields_legal ⟨.ck, .w64⟩ p
theorem jk16 (p : Presence) : Statement (.jk16 p) := hash_fields_legal ⟨.jk, .w16⟩ p
theorem jk32 (p : Presence) : Statement (.jk32 p) := hash_fields_legal ⟨.jk, .w32⟩ p
theorem jk64 (p : Presence) : Statement (.jk64 p) := hash_fields_legal ⟨.jk, .w64⟩ p
theorem fn16 (p : Presence) : Statement (.fn16 p) := hash_fields_legal ⟨.fn, .w16⟩ p
theorem fn32 (p : Presence) : Statement (.fn32 p) := hash_fields_legal ⟨.fn, .w32⟩ p
theorem fn64 (p : Presence) : Statement (.fn64 p) := hash_fields_legal ⟨.fn, .w64⟩ p

end Sys2Proof.Laws.FieldsLegal
end

