-- ==== Sys2Proof/Laws/Run.lean ====
section
/-! SUPPORT. Runs of several steps: one step at a time, in two parts, and as the host's own `Host.Core.run`. -/

namespace Sys2Proof.Machine

@[simp] theorem runSteps_zero (s : State) : runSteps 0 s = .next s := rfl

theorem runSteps_succ {s t : State} (n : Nat) (h : step s = .next t) : runSteps (n + 1) s = runSteps n t := by
  simp only [runSteps, h]

theorem runSteps_one {s t : State} (h : step s = .next t) : runSteps 1 s = .next t := runSteps_succ 0 h

/-- A run in two parts. -/
theorem runSteps_add {n : Nat} {s t : State} (m : Nat) (h : runSteps n s = .next t) :
    runSteps (n + m) s = runSteps m t := by
  induction n generalizing s with
  | zero => cases h; simp
  | succ n ih =>
    rw [show n + 1 + m = (n + m) + 1 by omega]
    cases hs : step s with
    | next u => rw [runSteps_succ _ hs] at h ⊢; exact ih h
    | fault r => simp [runSteps, hs] at h
    | refused r => simp [runSteps, hs] at h

theorem blocksTaken_succ {s t : State} (m : Nat) (h : step s = .next t) :
    blocksTaken (m + 1) s = (if s.agenda.head?.getD .block = .block then 1 else 0) + blocksTaken m t := by
  simp only [blocksTaken, h]

/-- A step with the block to move is a turn of the block. -/
theorem step_of_head_block {s : State} (h : s.agenda.head?.getD .block = .block) :
    step s = blockTurn (withAgenda s.agenda.tail s) := by
  cases ha : s.agenda with
  | nil =>
    have hs : withAgenda [] s = s := by rw [← ha]; rfl
    rw [step_empty ha, List.tail_nil, hs]
  | cons t rest =>
    rw [ha] at h
    cases (show t = .block from h)
    rw [step_turn ha]; rfl

/-- It is the run of the machine as the host reads it. -/
theorem runSteps_eq_core (n : Nat) (s : State) : runSteps n s = Host.Core.run Sys2Proof.core n s := by
  induction n generalizing s with
  | zero => rfl
  | succ n ih =>
    cases h : step s with
    | next t =>
      have hc : Sys2Proof.core.step s = .next t := h
      simp only [runSteps, h, Host.Core.run, hc]
      exact ih t
    | fault r =>
      have hc : Sys2Proof.core.step s = .fault r := h
      simp only [runSteps, h, Host.Core.run, hc]
      rfl
    | refused r =>
      have hc : Sys2Proof.core.step s = .refused r := h
      simp only [runSteps, h, Host.Core.run, hc]
      rfl

end Sys2Proof.Machine
end

