-- ==== Sys2Proof/Tests/Slice0.lean ====
section
/-! SUPPORT. Tests. Expected numbers are the spec's: 95_test_vectors.md (§ in each comment), the encoding rules R61 and
R63, and the trace tables there; none is this model's own output. The last part shows, for every statement that has
hypotheses, concrete states that meet them (`test_witness_<statement>`). -/

namespace Sys2Proof.Tests

open Sys2Proof Sys2Proof.Machine

/-! ### Well-formedness: each check of R64 refuses a word that breaks it -/

/-- A hash word with a reserved bit set. -/
theorem test_wf_reserved_bit : Fields.legal ⟨0, 1, 0, 1, 0⟩ = false := by decide
/-- A hash word with `WSEL = 0`. -/
theorem test_wf_hash_byte_width : Fields.legal ⟨1, 0, 0, 0, 0⟩ = false := by decide
/-- A hash word with `IDX8 != 0`. -/
theorem test_wf_hash_index : Fields.legal ⟨2, 3, 0, 0, 1⟩ = false := by decide
/-- A table word with `WSEL != 0`. -/
theorem test_wf_table_width : Fields.legal ⟨3, 1, 0, 0, 0x61⟩ = false := by decide
/-- A table word with `ABS = 1`. -/
theorem test_wf_table_absent : Fields.legal ⟨3, 0, 1, 0, 0x61⟩ = false := by decide
/-- Words that break nothing. -/
theorem test_wf_legal :
    Fields.legal ⟨3, 0, 0, 0, 0xFF⟩ = true ∧ Fields.legal ⟨2, 3, 1, 0, 0⟩ = true ∧ Fields.legal ⟨0, 1, 0, 0, 0⟩ = true := by
  decide

/-! ### Decoding: words written out from R61, `IDX8 _ RSV _ ABS _ WSEL _ ASEL`, for every constructor -/

theorem test_decode_tlkup : decodeWord 0b01100001_000_0_00_11#16 = .ok (.tlkup 0x61) := by decide
theorem test_decode_tlkup_top : decodeWord 0b11111111_000_0_00_11#16 = .ok (.tlkup 0xFF) := by decide
theorem test_decode_ck16 :
    decodeWord 0b00000000_000_0_01_00#16 = .ok (.ck16 .present) ∧
      decodeWord 0b00000000_000_1_01_00#16 = .ok (.ck16 .absent) := by decide
theorem test_decode_ck32 :
    decodeWord 0b00000000_000_0_10_00#16 = .ok (.ck32 .present) ∧
      decodeWord 0b00000000_000_1_10_00#16 = .ok (.ck32 .absent) := by decide
theorem test_decode_ck64 :
    decodeWord 0b00000000_000_0_11_00#16 = .ok (.ck64 .present) ∧
      decodeWord 0b00000000_000_1_11_00#16 = .ok (.ck64 .absent) := by decide
theorem test_decode_jk16 :
    decodeWord 0b00000000_000_0_01_01#16 = .ok (.jk16 .present) ∧
      decodeWord 0b00000000_000_1_01_01#16 = .ok (.jk16 .absent) := by decide
theorem test_decode_jk32 :
    decodeWord 0b00000000_000_0_10_01#16 = .ok (.jk32 .present) ∧
      decodeWord 0b00000000_000_1_10_01#16 = .ok (.jk32 .absent) := by decide
theorem test_decode_jk64 :
    decodeWord 0b00000000_000_0_11_01#16 = .ok (.jk64 .present) ∧
      decodeWord 0b00000000_000_1_11_01#16 = .ok (.jk64 .absent) := by decide
theorem test_decode_fn16 :
    decodeWord 0b00000000_000_0_01_10#16 = .ok (.fn16 .present) ∧
      decodeWord 0b00000000_000_1_01_10#16 = .ok (.fn16 .absent) := by decide
theorem test_decode_fn32 :
    decodeWord 0b00000000_000_0_10_10#16 = .ok (.fn32 .present) ∧
      decodeWord 0b00000000_000_1_10_10#16 = .ok (.fn32 .absent) := by decide
theorem test_decode_fn64 :
    decodeWord 0b00000000_000_0_11_10#16 = .ok (.fn64 .present) ∧
      decodeWord 0b00000000_000_1_11_10#16 = .ok (.fn64 .absent) := by decide

/-- The reserved words of §7, each refused by the clause it breaks. -/
theorem test_decode_reserved :
    decodeWord 0x0000 = .error .hashWidthIsByte ∧ decodeWord 0x0013 = .error .tableOperandAbsent ∧
      decodeWord 0x0007 = .error .tableWidthNotByte ∧ decodeWord 0x0001 = .error .hashWidthIsByte ∧
      decodeWord 0x0002 = .error .hashWidthIsByte ∧ decodeWord 0x0104 = .error .hashIndexNotZero ∧
      decodeWord 0x0024 = .error .reservedBitsSet ∧ decodeWord 0x0044 = .error .reservedBitsSet ∧
      decodeWord 0x0084 = .error .reservedBitsSet ∧ decodeWord 0x000F = .error .tableWidthNotByte ∧
      decodeWord 0x001F = .error .tableWidthNotByte := by decide

/-- The numbering of the opcode table: 16 bits, bit 0 least significant. -/
theorem test_table_word : decodeTableWord 16 0x001E = some (.fn64 .absent) ∧ decodeTableWord 16 0 = none := by decide

/-! ### The pure functions: §3 to §6 -/

/-- `"abc"`. -/
def abc : List U8 := [0x61, 0x62, 0x63]

/-- Folds, §3: `FNV_BASIS` and a value whose slices all differ. -/
theorem test_fold :
    fold64to32 0xCBF29CE484222325 = 0x4FD0BFC1 ∧ fold64to16 0xCBF29CE484222325 = 0xF011 ∧
      fold64to32 0x0001000200040008 = 0x0005000A ∧ fold64to16 0x0001000200040008 = 0x000F ∧
      fold32to16 0x4106129D = 0x539B := by decide

/-- `p` of R93, §3: the difference wraps in the second row. -/
theorem test_mixP :
    mixP 0x30A5CB04 0x61 0 = 19849 ∧ mixP 1 2 3 = 60629 ∧ mixP 0xFFFFFFFF 0xFFFFFFFF 1 = 0 ∧
      mixP 0x12345678 5 9 = 23480 := by decide

/-- `T_ROM` of TESTCFG, §1. -/
def testRom (i : U8) : U8 := 167 * i + 13

/-- `MIX` of TESTCFG, §1. -/
def testMix (h c n : U32) : U32 :=
  mixShape ((testRom ((h ^^^ c).setWidth 8)).setWidth 32) ((testRom ((h >>> 8 ^^^ n).setWidth 8)).setWidth 32)
    ((testRom ((mixP h c n).setWidth 8)).setWidth 32) (h ^^^ (testRom ((c ^^^ n).setWidth 8)).setWidth 32)

/-- `MIX` samples, §4. -/
theorem test_mix : testMix 0x30A5CB04 0x61 0 = 0xC0DFA750 ∧ testMix 1 2 3 = 0x020200B5 := by decide

/-- `CK64 ""` and, under TESTCFG, `CK64 "a"` and `CK64 "ba"`, §4. -/
theorem test_ckWide :
    ckWide testMix [] = 0xFAB1C0E1CA140BE5 ∧ ckWide testMix [0x61] = 0x983FD7ADD89F250B ∧
      ckWide testMix [0x62, 0x61] = 0xCEA196A16280FCC8 := by decide

/-- `CK64 "abc"` under TESTCFG, §4: the wrong readings listed there give other values. -/
theorem test_ckWide_abc : ckWide testMix abc = 0xFBC494D13F35D9D1 := by decide

/-- `JK32 "abc"`, §5: the wrong readings listed there give other values. -/
theorem test_jk32_abc : jk32 abc 0 = 0x4106129D ∧ jk32 [0x01] 0 = 0x00008001 := by decide

/-- A collision of `JK32`, §5: `"1440"` and `"5184"`. -/
theorem test_jk32_collision :
    jk32 [0x31, 0x34, 0x34, 0x30] 0 = 0x16265935 ∧ jk32 [0x35, 0x31, 0x38, 0x34] 0 = 0x16265935 := by decide

/-- `JK64 "abc"` and `JK64 "ab"` with the TESTCFG reseed constant, and `JK64 ""`, §5. -/
theorem test_jk64 :
    jk64 0x1234ABCD abc = 0x4106129D40D81135 ∧ jk64 0x1234ABCD [0x61, 0x62] = 0xB3F7F83A685D2E3C ∧
      jk64 0x1234ABCD [] = 0 := by decide

/-- `FN64 "abc"`, and `x"097d"`, which tells the order of the addition and the XOR, §6. -/
theorem test_fnvWide : fnvWide abc = 0x7D902B4CA627074B ∧ fnvWide [0x09, 0x7D] = 0x3A7E957FB786535B := by decide

/-- The block steps of `FN32 "abc"`, `JK64 ""` and `JK64 "ab"`, §8. -/
theorem test_blockSteps :
    blockSteps ⟨.fn, .w32⟩ 3 = 4 ∧ blockSteps ⟨.jk, .w64⟩ 0 = 1 ∧ blockSteps ⟨.jk, .w64⟩ 2 = 6 := by decide

/-! ### Small states. `LENW` may be 1, so the buffers that every configuration has are `""` and `"a"` -/

/-- `"a"`. -/
def strA : List U8 := [0x61]

/-- Idle, `"a"` supplied, `ARG = 1`. -/
def idle : State := { State.reset with arg := 1, buf := [(0, 0x61)] }

/-- Idle with the present empty buffer, `ARG = 0`. -/
def idleEmpty : State := { State.reset with arg := 0 }

/-- After a command: `RESULT = 0x539B`. -/
def finished : State := { idle with phase := .done, result := 0x539B }

/-- Running `op` on `"a"`, at index `i`. -/
def running (op : HashOp) (i : BitVec Config.lenw) : State :=
  { idle with phase := .busy, len := 1, opl := op, idx := i, cmd := 0x000E }

/-- Running `op` on the empty buffer. -/
def runningEmpty (op : HashOp) : State := { idleEmpty with phase := .busy, opl := op }

/-- In the second pass of `JK64`. -/
def secondPass (i : BitVec Config.lenw) : State := { running ⟨.jk, .w64⟩ i with pass := true }

/-- In `ERROR`. -/
def failed : State := { idle with phase := .error, ecode := .reservedCommand }

/-- Running on a buffer whose byte was never supplied, at that byte. -/
def starved : State := { running ⟨.fn, .w64⟩ 0 with buf := [] }

/-- `s` with these turns to come. -/
def facing (ts : List Turn) (s : State) : State := { s with agenda := ts }

/-- What `RESULT` holds after an outcome, if the machine goes on. -/
def resultOf (o : Machine.Outcome) : Option U64 :=
  match o with
  | .next t => some t.result
  | _ => none

/-- `STATE`, `ECODE`, `CMD`, `ARG` after an outcome, if the machine goes on. -/
def visible (o : Machine.Outcome) : Option (Phase × ECode × U16 × BitVec Config.lenw) :=
  match o with
  | .next t => some (t.phase, t.ecode, t.cmd, t.arg)
  | _ => none

theorem step_finish {s : State} (ha : s.agenda = []) (hp : s.phase = .busy) (hi : s.idx = s.len) :
    step s = .next (finish s) := by rw [step_empty ha, blockTurn_finish hp hi]

/-! ### One step: the commands (§4 to §6, §8) -/

/-- `TLKUP 0x61` (R82). -/
theorem test_tlkup : visible (exec (.tlkup 0x61) idle) = some (.done, .none, 0x6103, 1) := rfl
/-- `CK16 NULL`, §4. -/
theorem test_ck16_null : resultOf (exec (.ck16 .absent) finished) = some 0 := by decide
/-- `Finish` of `CK16 ""` with the seeds in `C1`, `C2`, §4: -1119 sign-extended. -/
theorem test_ck16_empty :
    resultOf (step { runningEmpty ⟨.ck, .w16⟩ with c1 := 0xFAB1C0E1, c2 := 0xCA140BE5 }) =
      some 0xFFFFFFFFFFFFFBA1 := by rw [step_finish rfl rfl rfl]; decide
/-- `CK32 NULL`, §4. -/
theorem test_ck32_null : resultOf (exec (.ck32 .absent) finished) = some 0 := by decide
/-- `Finish` of `CK32 "abc"` with the TESTCFG accumulators of §4: -990819072 sign-extended. -/
theorem test_ck32_finish :
    resultOf (step { running ⟨.ck, .w32⟩ 1 with c1 := 0xFBC494D1, c2 := 0x3F35D9D1 }) =
      some 0xFFFFFFFFC4F14D00 := by rw [step_finish rfl rfl rfl]; decide
/-- `CK64 NULL`, §4. -/
theorem test_ck64_null : visible (exec (.ck64 .absent) idle) = some (.done, .none, 0x001C, 1) := rfl
/-- `Finish` of `CK64 ""`, §4. -/
theorem test_ck64_empty :
    resultOf (step { runningEmpty ⟨.ck, .w64⟩ with c1 := 0xFAB1C0E1, c2 := 0xCA140BE5 }) =
      some 0xFAB1C0E1CA140BE5 := by rw [step_finish rfl rfl rfl]; decide
/-- `JK16 NULL`, §5. -/
theorem test_jk16_null : resultOf (exec (.jk16 .absent) idle) = some 0x3C29 := by decide
/-- `Finish` of `JK16 "a"` from `H = 0x18661`, §5: -7001 sign-extended. -/
theorem test_jk16_finish :
    resultOf (step { running ⟨.jk, .w16⟩ 1 with h := 0x00018661 }) = some 0xFFFFFFFFFFFFE4A7 := by
  rw [step_finish rfl rfl rfl]
  show some (presented (fold32to16 (jkFinal 0x00018661 ((1 : BitVec Config.lenw).setWidth 32)))) = _
  rw [Config.one_setWidth]; decide
/-- The byte of `JK32 "a"`, §5: `H` from 0 to `0x18661`. -/
theorem test_jk32_byte :
    step (running ⟨.jk, .w32⟩ 0) = .next { running ⟨.jk, .w32⟩ (0 + 1) with h := 0x00018661 } := by
  rw [step_empty rfl, blockTurn_byte rfl Config.zero_lt_one rfl]
  show Host.Outcome.next
    { running ⟨.jk, .w32⟩ (0 + 1) with h := jkByte ((1 : BitVec Config.lenw).setWidth 32) 0 0x61 } = _
  rw [Config.one_setWidth]; rfl
/-- `Finish` of `JK32 "a"`, §5: -596231983 sign-extended. -/
theorem test_jk32_finish :
    resultOf (step { running ⟨.jk, .w32⟩ 1 with h := 0x00018661 }) = some 0xFFFFFFFFDC7638D1 := by
  rw [step_finish rfl rfl rfl]
  show some (presented (jkFinal 0x00018661 ((1 : BitVec Config.lenw).setWidth 32))) = _
  rw [Config.one_setWidth]; decide
/-- `Finish` of the first pass of `JK64 "a"`, §5: no result yet, `H1L` is the plain hash, the second pass starts. -/
theorem test_jk64_first_finish :
    step { running ⟨.jk, .w64⟩ 1 with h := 0x00018661 } =
      .next { secondPass 0 with h1l := 0xDC7638D1, h := 0xDC7638D1 ^^^ Config.jkReseed } := by
  have hf : jkFinal 0x00018661 ((1 : BitVec Config.lenw).setWidth 32) = 0xDC7638D1 := by
    rw [Config.one_setWidth]; decide
  rw [step_finish rfl rfl rfl, ← hf]
  exact congrArg _ (if_neg Config.one_ne_zero)
/-- `JK64 ""` (§8, program 2): one `Finish`, result 0. -/
theorem test_jk64_empty : resultOf (step (runningEmpty ⟨.jk, .w64⟩)) = some 0 := by
  rw [step_finish rfl rfl rfl]
  show resultOf (.next (if (0 : BitVec Config.lenw) = 0 then
    completeJk (jkFinal 0 ((0 : BitVec Config.lenw).setWidth 32) ++ (0 : U32)) (runningEmpty ⟨.jk, .w64⟩)
    else startSecondPass (runningEmpty ⟨.jk, .w64⟩))) = _
  rw [if_pos rfl, Config.zero_setWidth]; decide
/-- `FN16 NULL`, §6. -/
theorem test_fn16_null : visible (exec (.fn16 .absent) finished) = some (.done, .none, 0x0016, 1) := rfl
/-- `Finish` of `FN16 "abc"` (§8, program 1, line 4). -/
theorem test_fn16_finish :
    resultOf (step { running ⟨.fn, .w16⟩ 1 with hv := 0x7D902B4CA627074B }) = some 0xFFFFFFFFFFFFF7B0 := by
  rw [step_finish rfl rfl rfl]; decide
/-- Launch of `FN32` (§8, program 1, line 3). -/
theorem test_fn32_launch : visible (exec (.fn32 .present) finished) = some (.busy, .none, 0x000A, 1) := rfl
/-- `Finish` of `FN32 "abc"` (§8, program 1, line 3). -/
theorem test_fn32_finish :
    resultOf (step { running ⟨.fn, .w32⟩ 1 with hv := 0x7D902B4CA627074B }) = some 0xFFFFFFFFDBB72C07 := by
  rw [step_finish rfl rfl rfl]; decide
/-- The byte of `FN64 "a"`, §6. -/
theorem test_fn64_byte :
    step { running ⟨.fn, .w64⟩ 0 with hv := 0xCBF29CE484222325 } =
      .next { running ⟨.fn, .w64⟩ (0 + 1) with hv := 0xCB0B970874A8848C } := by
  rw [step_empty rfl, blockTurn_byte rfl Config.zero_lt_one rfl]; rfl
/-- `Finish` of `FN64 ""`, §6. -/
theorem test_fn64_empty :
    resultOf (step { runningEmpty ⟨.fn, .w64⟩ with hv := 0xCBF29CE484222325 }) = some 0xCBF29CE484222325 := by
  rw [step_finish rfl rfl rfl]; decide

/-! ### One step: exceptions (§7) and the host's side -/

/-- A reserved word in `IDLE`, and in `DONE`, §7. -/
theorem test_reserved_word :
    visible (step (facing [.host (.writeCmd 0x0000)] State.reset)) = some (.error, .reservedCommand, 0x0000, 0) ∧
      visible (step (facing [.host (.writeCmd 0x0104)] finished)) = some (.error, .reservedCommand, 0x0104, 1) :=
  ⟨rfl, rfl⟩

/-- `WriteARG(0)`, and a word that is not decoded, in `BUSY`, §7. -/
theorem test_busy_write :
    visible (step (facing [.host (.writeArg 0)] (running ⟨.fn, .w64⟩ 1))) = some (.error, .busyViolation, 0x000E, 1) ∧
      visible (step (facing [.host (.writeCmd 0)] (running ⟨.fn, .w64⟩ 1))) =
        some (.error, .busyViolation, 0x000E, 1) := ⟨rfl, rfl⟩

/-- A command in `ERROR`, and the reset out of it, §7. -/
theorem test_error_and_reset :
    step (facing [.host (.writeCmd 0x000E)] failed) = .next failed ∧
      visible (step (facing [.reset] failed)) = some (.idle, .none, 0, 0) := ⟨rfl, rfl⟩

/-- `STATUS` as read in `DONE`, `BUSY` and `ERROR` (R28). -/
theorem test_status :
    statusWord finished = 2 ∧ statusWord (running ⟨.ck, .w16⟩ 0) = 1 ∧ statusWord failed = 7 := by decide

/-- The word placed by `withFetchWord` is what the very next step runs. -/
theorem test_fetch_word : visible (step (State.reset.withFetchWord 16 0x0015)) = some (.done, .none, 0x0015, 0) := rfl

/-- The host sequence of `FN64 "a"` (R69): fill `BUF`, `WriteARG`, `WriteCMD`, poll. -/
theorem test_line :
    (Line.hash ⟨.fn, .w64⟩ (.buffer strA)).turns [2] =
      [.host (.writeBuf 0 0x61), .host (.writeArg 1), .host (.writeCmd 0x000E), .await [2]] := rfl

/-- A poll (R69 steps 4 and 5) in `BUSY`, in `DONE` and in `ERROR` (§8, program 4, line 3). -/
theorem test_poll :
    afterPoll [2, 0] .busy = [.block, .block, .await [0]] ∧ afterPoll [] .busy = [.block, .await []] ∧
      afterPoll [] .done = [.host (.read .result)] ∧ afterPoll [2] .error = [] := by decide

/-! ### Witnesses: states that meet the hypotheses of each statement -/

theorem test_witness_EncodeOfDecodedWord :
    decodeWord 0xFF03 = .ok (.tlkup 0xFF) ∧ decodeWord 0x0012 ≠ .ok (.tlkup 0) := by decide

theorem test_witness_StepRunsWrittenCommand :
    (facing [.host (.writeCmd 0x000E)] idle).agenda = .host (.writeCmd 0x000E) :: [] ∧
      decodeWord 0x000E = .ok (.fn64 .present) ∧ decodeTableWord 16 0x6103 = some (.tlkup 0x61) := ⟨rfl, rfl, rfl⟩

theorem test_witness_EmptyAgendaGivesBlockTurn :
    idle.agenda = [] ∧ (facing [.block] idle).agenda = .block :: [] ∧ idle.phase ≠ .busy := ⟨rfl, rfl, nofun⟩

theorem test_witness_TlkupCompletes : Ready State.reset ∧ Ready finished := ⟨.inl rfl, .inr rfl⟩

theorem test_witness_AbsentCustomAndFnvComplete : Ready State.reset ∧ Ready finished := ⟨.inl rfl, .inr rfl⟩

theorem test_witness_AbsentJenkinsCompletes : Ready State.reset ∧ Ready finished := ⟨.inl rfl, .inr rfl⟩

theorem test_witness_PresentCustomLaunches : Ready idle ∧ Ready finished := ⟨.inl rfl, .inr rfl⟩

theorem test_witness_PresentJenkinsLaunches : Ready idle ∧ Ready finished := ⟨.inl rfl, .inr rfl⟩

theorem test_witness_PresentFnvLaunches : Ready idle ∧ Ready finished := ⟨.inl rfl, .inr rfl⟩

/-- `"a"` is in the `BUF` of `idle` and `finished`, whatever is still to come. -/
theorem test_holds (ts : List Turn) :
    HoldsBuffer (facing ts idle) strA ∧ HoldsBuffer (facing ts finished) strA := by
  have h : ∀ i, i < strA.length → Memory.read [(0, 0x61)] i = strA[i]? := by decide
  exact ⟨⟨Config.toNat_one, h⟩, Config.toNat_one, h⟩

/-- The empty buffer is in the `BUF` of `idleEmpty`. -/
theorem test_holds_empty : HoldsBuffer idleEmpty [] := ⟨rfl, nofun⟩

/-- A host that reads, polls, stores outside the operand and stores the byte already there. -/
def watching : List Turn :=
  [.host (.read .result), .await [0, 3], .host (.writeBuf 1 7), .block, .host (.writeBuf 0 0x61)]

theorem test_watching (s : State) : Undisturbed strA (facing watching s) := by
  intro t ht
  simp only [facing, watching, List.mem_cons, List.not_mem_nil, or_false] at ht
  rcases ht with rfl | rfl | rfl | rfl | rfl
  · trivial
  · trivial
  · exact .inl (by rw [Config.toNat_one]; rfl)
  · trivial
  · exact .inr rfl

/-- A silent host and one that watches, over `"a"`; a silent host over the empty buffer. -/
theorem test_witness_CustomRunsToFold :
    (Ready idle ∧ HoldsBuffer idle strA ∧ Undisturbed strA idle) ∧
      (Ready (facing watching idle) ∧ HoldsBuffer (facing watching idle) strA ∧
        Undisturbed strA (facing watching idle)) ∧
      Ready idleEmpty ∧ HoldsBuffer idleEmpty [] ∧ Undisturbed [] idleEmpty :=
  ⟨⟨.inl rfl, (test_holds []).1, nofun⟩, ⟨.inl rfl, (test_holds _).1, test_watching idle⟩, .inl rfl, test_holds_empty,
    nofun⟩

theorem test_witness_FnvRunsToFold :
    (Ready (facing watching idle) ∧ HoldsBuffer (facing watching idle) strA ∧
        Undisturbed strA (facing watching idle)) ∧
      Ready idleEmpty ∧ HoldsBuffer idleEmpty [] ∧ Undisturbed [] idleEmpty := test_witness_CustomRunsToFold.2

theorem test_witness_JenkinsRunsToHash :
    (Ready (facing watching idle) ∧ HoldsBuffer (facing watching idle) strA ∧
        Undisturbed strA (facing watching idle)) ∧
      Ready idleEmpty ∧ HoldsBuffer idleEmpty [] ∧ Undisturbed [] idleEmpty := test_witness_CustomRunsToFold.2

theorem test_witness_JenkinsWideRunsTwice :
    (Ready (facing watching idle) ∧ HoldsBuffer (facing watching idle) strA ∧
        Undisturbed strA (facing watching idle) ∧ strA ≠ []) ∧
      Ready idleEmpty ∧ HoldsBuffer idleEmpty [] ∧ Undisturbed [] idleEmpty :=
  ⟨⟨.inl rfl, (test_holds _).1, test_watching idle, nofun⟩, test_witness_CustomRunsToFold.2.2⟩

/-- Different histories, and a host that watches only one of the runs. -/
theorem test_witness_ResultIndependentOfHistory :
    (Ready (facing watching idle) ∧ Ready finished ∧ Undisturbed strA (facing watching idle) ∧
        Undisturbed strA finished ∧ usesBuffer (.fn64 .present) = true ∧ HoldsBuffer (facing watching idle) strA ∧
        HoldsBuffer finished strA) ∧ usesBuffer (.tlkup 0) = false :=
  ⟨⟨.inl rfl, .inr rfl, test_watching idle, nofun, rfl, (test_holds _).1, (test_holds []).2⟩, rfl⟩

/-- In each value of `STATE`. -/
theorem test_witness_PollFollowsStatus :
    (facing [.await [2]] finished).agenda = .await [2] :: [] ∧
      (facing [.await []] (running ⟨.ck, .w16⟩ 0)).agenda = .await [] :: [] ∧
      (facing [.await []] failed).agenda = .await [] :: [] ∧ (facing [.await []] idle).agenda = .await [] :: [] :=
  ⟨rfl, rfl, rfl, rfl⟩

/-- A line with a buffer and one without, after an earlier command, with turns to come after it. -/
theorem test_witness_LineReadsResult :
    (Ready (facing ((Line.hash ⟨.jk, .w64⟩ (.buffer strA)).turns [0, 3] ++ [.reset]) finished) ∧
        (Line.hash ⟨.jk, .w64⟩ (.buffer strA)).fits = true ∧
        (facing ((Line.hash ⟨.jk, .w64⟩ (.buffer strA)).turns [0, 3] ++ [.reset]) finished).agenda =
          (Line.hash ⟨.jk, .w64⟩ (.buffer strA)).turns [0, 3] ++ [.reset]) ∧
      (Line.tlkup 0xFF).fits = true ∧ (Line.hash ⟨.ck, .w16⟩ .null).fits = true :=
  ⟨⟨.inr rfl, decide_eq_true Config.one_lt_two_pow_lenw, rfl⟩, rfl, rfl⟩

theorem test_witness_LineInErrorReadsNoResult :
    failed.phase = .error ∧
      (facing ((Line.hash ⟨.fn, .w64⟩ (.buffer [])).turns [] ++ [.reset]) failed).agenda =
        (Line.hash ⟨.fn, .w64⟩ (.buffer [])).turns [] ++ [.reset] := ⟨rfl, rfl⟩

theorem test_witness_ReservedWordRaises :
    (facing [.host (.writeCmd 0x0104)] finished).agenda = .host (.writeCmd 0x0104) :: [] ∧
      Ready (facing [.host (.writeCmd 0x0104)] finished) ∧ decodeWord 0x0104 = .error .hashIndexNotZero :=
  ⟨rfl, .inr rfl, rfl⟩

/-- Each kind of write, with a legal and with a reserved word. -/
theorem test_witness_BusyWriteRaises :
    (running ⟨.ck, .w32⟩ 1).phase = .busy ∧
      (facing [.host (.writeCmd 0x000E)] (running ⟨.ck, .w32⟩ 1)).agenda = .host (.writeCmd 0x000E) :: [] ∧
      (facing [.host (.writeCmd 0x0000)] (running ⟨.ck, .w32⟩ 1)).agenda = .host (.writeCmd 0x0000) :: [] ∧
      (facing [.host (.writeArg 0)] (running ⟨.ck, .w32⟩ 1)).agenda = .host (.writeArg 0) :: [] := ⟨rfl, rfl, rfl, rfl⟩

theorem test_witness_ErrorIgnoresWrites :
    failed.phase = .error ∧ (facing [.host (.writeCmd 0x000E)] failed).agenda = .host (.writeCmd 0x000E) :: [] ∧
      (facing [.host (.writeArg 0)] failed).agenda = .host (.writeArg 0) :: [] := ⟨rfl, rfl, rfl⟩

theorem test_witness_ErrorLeftOnlyByReset :
    (facing [.host (.writeCmd 0x000E)] failed).phase = .error ∧
      (∀ rest, (facing [.host (.writeCmd 0x000E)] failed).agenda ≠ .reset :: rest) ∧
      step (facing [.host (.writeCmd 0x000E)] failed) = .next failed := ⟨rfl, nofun, rfl⟩

/-- Both causes occur. -/
theorem test_witness_ExceptionsHaveTwoCauses :
    (∃ t, step (facing [.host (.writeCmd 0x0001)] finished) = .next t ∧ t.phase = .error) ∧ finished.phase ≠ .error ∧
      (∃ t, step (facing [.host (.writeArg 0)] (running ⟨.jk, .w16⟩ 1)) = .next t ∧ t.phase = .error) ∧
      (∃ t, step (facing [.host (.writeCmd 0x0001)] (running ⟨.jk, .w16⟩ 1)) = .next t ∧ t.phase = .error) :=
  ⟨⟨_, rfl, rfl⟩, nofun, ⟨_, rfl, rfl⟩, ⟨_, rfl, rfl⟩⟩

theorem starved_faults : blockTurn starved = .fault .bufferByteMissing := if_pos Config.zero_lt_one

/-- Both stops occur, the refused store after the operand byte was already read. -/
theorem test_witness_StopsOnlyOnHostBreach :
    step starved = .fault .bufferByteMissing ∧
      step (facing [.host (.writeBuf 0 0x7A)] (running ⟨.jk, .w16⟩ 1)) = .refused .operandChanged :=
  ⟨(step_empty rfl).trans starved_faults, if_pos ⟨rfl, Config.zero_lt_one, (by decide : (some 0x61 : Option U8) ≠ some 0x7A)⟩⟩

theorem test_witness_EveryCommandCompletes : Ready idle ∧ ¬ Ready failed := by
  refine ⟨.inl rfl, ?_⟩; rintro (h | h) <;> cases h

theorem test_witness_ResetEventRestoresIdle : (facing [.reset] failed).agenda = .reset :: [] := rfl

/-- The largest length. -/
theorem test_witness_WriteArgLatchesLength :
    (facing [.host (.writeArg (BitVec.allOnes _))] idle).agenda = .host (.writeArg (BitVec.allOnes _)) :: [] ∧
      Ready (facing [.host (.writeArg (BitVec.allOnes _))] idle) := ⟨rfl, .inl rfl⟩

/-- One state for each clause. -/
theorem test_witness_RegisterReadsAnswer :
    (facing [.host (.read .arg)] idle).agenda = .host (.read .arg) :: [] ∧
      (facing [.host (.read .cmd)] idle).agenda = .host (.read .cmd) :: [] ∧
      (facing [.host (.read .status)] idle).agenda = .host (.read .status) :: [] ∧
      (facing [.host (.read .result)] finished).agenda = .host (.read .result) :: [] ∧ finished.phase = .done ∧
      (facing [.host (.read .result)] failed).agenda = .host (.read .result) :: [] ∧ failed.phase ≠ .done :=
  ⟨rfl, rfl, rfl, rfl, rfl, rfl, nofun⟩

theorem test_witness_ReadOnlyRegistersIgnoreWrites :
    (facing [.host (.writeStatus 0)] failed).agenda = .host (.writeStatus 0) :: [] ∧
      (facing [.host (.writeResult 0)] finished).agenda = .host (.writeResult 0) :: [] := ⟨rfl, rfl⟩

theorem test_witness_ResultLivesUntilNextCommand :
    (facing [.host (.writeArg 0)] finished).phase = .done ∧
      (∀ w rest, (facing [.host (.writeArg 0)] finished).agenda ≠ .host (.writeCmd w) :: rest) ∧
      (∀ rest, (facing [.host (.writeArg 0)] finished).agenda ≠ .reset :: rest) ∧
      ∃ t, step (facing [.host (.writeArg 0)] finished) = .next t := ⟨rfl, nofun, nofun, _, rfl⟩

/-- Not running; the first index outside the operand; the last index of the space; the byte already there. -/
theorem test_witness_HostStoreChangesOneByte :
    (facing [.host (.writeBuf 0 7)] idle).agenda = .host (.writeBuf 0 7) :: [] ∧ idle.phase ≠ .busy ∧
      (running ⟨.ck, .w16⟩ 0).len ≤ 1 ∧ (running ⟨.ck, .w16⟩ 0).len ≤ BitVec.allOnes _ ∧
      Memory.read (running ⟨.ck, .w16⟩ 0).buf 0 = some 0x61 :=
  ⟨rfl, nofun, Nat.le_refl _, by
    rw [BitVec.le_def, BitVec.toNat_allOnes]
    exact Nat.le_sub_one_of_lt (BitVec.isLt _), rfl⟩

theorem test_witness_OperandChangeRefused :
    (facing [.host (.writeBuf 0 7)] (running ⟨.ck, .w16⟩ 0)).agenda = .host (.writeBuf 0 7) :: [] ∧
      (running ⟨.ck, .w16⟩ 0).phase = .busy ∧ 0 < (running ⟨.ck, .w16⟩ 0).len ∧
      Memory.read (running ⟨.ck, .w16⟩ 0).buf 0 ≠ some 7 := ⟨rfl, rfl, Config.zero_lt_one, by decide⟩

theorem test_witness_CustomByteStep :
    (running ⟨.ck, .w64⟩ 0).phase = .busy ∧ (running ⟨.ck, .w64⟩ 0).opl.alg = .ck ∧
      (running ⟨.ck, .w64⟩ 0).idx < (running ⟨.ck, .w64⟩ 0).len ∧
      Memory.read (running ⟨.ck, .w64⟩ 0).buf (running ⟨.ck, .w64⟩ 0).idx.toNat = some 0x61 :=
  ⟨rfl, rfl, Config.zero_lt_one, rfl⟩

/-- With turns of the host still to come. -/
theorem test_witness_JenkinsByteStep :
    (facing watching (running ⟨.jk, .w32⟩ 0)).phase = .busy ∧
      (facing watching (running ⟨.jk, .w32⟩ 0)).opl.alg = .jk ∧
      (facing watching (running ⟨.jk, .w32⟩ 0)).idx < (facing watching (running ⟨.jk, .w32⟩ 0)).len ∧
      Memory.read (running ⟨.jk, .w32⟩ 0).buf (running ⟨.jk, .w32⟩ 0).idx.toNat = some 0x61 :=
  ⟨rfl, rfl, Config.zero_lt_one, rfl⟩

theorem test_witness_FnvByteStep :
    (running ⟨.fn, .w16⟩ 0).phase = .busy ∧ (running ⟨.fn, .w16⟩ 0).opl.alg = .fn ∧
      (running ⟨.fn, .w16⟩ 0).idx < (running ⟨.fn, .w16⟩ 0).len ∧
      Memory.read (running ⟨.fn, .w16⟩ 0).buf (running ⟨.fn, .w16⟩ 0).idx.toNat = some 0x61 :=
  ⟨rfl, rfl, Config.zero_lt_one, rfl⟩

/-- After the last byte, and on the empty buffer. -/
theorem test_witness_CustomFinish :
    (running ⟨.ck, .w32⟩ 1).phase = .busy ∧ (running ⟨.ck, .w32⟩ 1).opl.alg = .ck ∧
      (running ⟨.ck, .w32⟩ 1).idx = (running ⟨.ck, .w32⟩ 1).len ∧
      (runningEmpty ⟨.ck, .w16⟩).idx = (runningEmpty ⟨.ck, .w16⟩).len := ⟨rfl, rfl, rfl, rfl⟩

theorem test_witness_FnvFinish :
    (running ⟨.fn, .w32⟩ 1).phase = .busy ∧ (running ⟨.fn, .w32⟩ 1).opl.alg = .fn ∧
      (running ⟨.fn, .w32⟩ 1).idx = (running ⟨.fn, .w32⟩ 1).len ∧
      (runningEmpty ⟨.fn, .w16⟩).idx = (runningEmpty ⟨.fn, .w16⟩).len := ⟨rfl, rfl, rfl, rfl⟩

/-- Both widths. -/
theorem test_witness_JenkinsFinish :
    (running ⟨.jk, .w32⟩ 1).phase = .busy ∧ (running ⟨.jk, .w32⟩ 1).idx = (running ⟨.jk, .w32⟩ 1).len ∧
      (running ⟨.jk, .w32⟩ 1).opl = ⟨.jk, .w32⟩ ∧ (running ⟨.jk, .w16⟩ 1).opl = ⟨.jk, .w16⟩ := ⟨rfl, rfl, rfl, rfl⟩

/-- First pass, first pass over the empty buffer, second pass. -/
theorem test_witness_JenkinsWideFinish :
    ((running ⟨.jk, .w64⟩ 1).phase = .busy ∧ (running ⟨.jk, .w64⟩ 1).opl = ⟨.jk, .w64⟩ ∧
        (running ⟨.jk, .w64⟩ 1).idx = (running ⟨.jk, .w64⟩ 1).len ∧ (running ⟨.jk, .w64⟩ 1).pass = false ∧
        (running ⟨.jk, .w64⟩ 1).len ≠ 0) ∧
      ((runningEmpty ⟨.jk, .w64⟩).idx = (runningEmpty ⟨.jk, .w64⟩).len ∧ (runningEmpty ⟨.jk, .w64⟩).pass = false ∧
        (runningEmpty ⟨.jk, .w64⟩).len = 0) ∧
      (secondPass 1).idx = (secondPass 1).len ∧ (secondPass 1).pass = true :=
  ⟨⟨rfl, rfl, rfl, rfl, Config.one_ne_zero⟩, ⟨rfl, rfl, rfl⟩, rfl, rfl⟩

/-- A turn of each engine. -/
theorem test_witness_BlockTurnFrame :
    (∃ t, blockTurn (running ⟨.ck, .w16⟩ 0) = .next t) ∧ (∃ t, blockTurn (running ⟨.jk, .w16⟩ 0) = .next t) ∧
      (∃ t, blockTurn (running ⟨.fn, .w16⟩ 1) = .next t) ∧ (running ⟨.ck, .w16⟩ 0).opl.alg ≠ .jk ∧
      (running ⟨.ck, .w16⟩ 0).opl.alg ≠ .fn ∧ (running ⟨.jk, .w16⟩ 0).opl.alg ≠ .ck :=
  ⟨⟨_, blockTurn_byte rfl Config.zero_lt_one rfl⟩, ⟨_, blockTurn_byte rfl Config.zero_lt_one rfl⟩,
    ⟨_, blockTurn_finish rfl rfl⟩, nofun, nofun, nofun⟩

/-- A buffer space that differs at index 1, the first one outside the operand; a turn that goes on and one that
faults. -/
theorem test_witness_BlockReadsOnlyBelowLength :
    (∀ a, a < (running ⟨.fn, .w64⟩ 0).len.toNat →
        Memory.read [(0, 0x61), (1, 9)] a = Memory.read (running ⟨.fn, .w64⟩ 0).buf a) ∧
      (∃ t, blockTurn (running ⟨.fn, .w64⟩ 0) = .next t) ∧ blockTurn starved = .fault .bufferByteMissing := by
  refine ⟨fun a h => ?_, ⟨_, blockTurn_byte rfl Config.zero_lt_one rfl⟩, starved_faults⟩
  have h : a < 1 := Nat.lt_of_lt_of_eq h Config.toNat_one
  cases Nat.lt_one_iff.1 h
  rfl

theorem running_inv (op : HashOp) (p : Bool) (h : p = true → op = ⟨.jk, .w64⟩) :
    MachineInv { running op 0 with pass := p } :=
  ⟨by simp [running, idle, Memory.wf], by simp [running, idle, State.reset], fun _ =>
    ⟨Nat.zero_le _, fun hp => ⟨h hp, Config.one_ne_zero⟩⟩⟩

theorem running_supplied (op : HashOp) (p : Bool) : Supplied { running op 0 with pass := p } := by
  intro i h
  have h : i < 1 := Nat.lt_of_lt_of_eq h Config.toNat_one
  cases Nat.lt_one_iff.1 h
  exact (by decide : (some 0x61 : Option U8) ≠ none)

/-- Just launched, at the start of the second pass, and on the empty buffer. -/
theorem test_witness_RunningCommandFinishes :
    (MachineInv (running ⟨.ck, .w16⟩ 0) ∧ (running ⟨.ck, .w16⟩ 0).phase = .busy ∧
        (running ⟨.ck, .w16⟩ 0).agenda = [] ∧ Supplied (running ⟨.ck, .w16⟩ 0)) ∧
      (MachineInv (secondPass 0) ∧ Supplied (secondPass 0)) ∧
      MachineInv (runningEmpty ⟨.jk, .w64⟩) ∧ Supplied (runningEmpty ⟨.jk, .w64⟩) :=
  ⟨⟨running_inv _ false nofun, rfl, rfl, running_supplied _ false⟩,
    ⟨running_inv _ true fun _ => rfl, running_supplied _ true⟩,
    ⟨rfl, by simp [runningEmpty, idleEmpty, State.reset], fun _ => ⟨Nat.zero_le _, nofun⟩⟩,
    fun i h => absurd h (Nat.not_lt_zero i)⟩

/-- Two equal lookups. -/
theorem test_witness_TableLookupsAreBijective :
    Ready idle ∧ ∃ t u, exec (.tlkup 0xFF) idle = .next t ∧ exec (.tlkup 0xFF) idle = .next u ∧ t.result = u.result :=
  ⟨.inl rfl, _, _, rfl, rfl, rfl⟩

/-- A step of the block, a poll, and a reset out of `ERROR`. -/
theorem test_witness_EveryStepKeepsInvariant :
    (MachineInv (secondPass 0) ∧ ∃ t, step (secondPass 0) = .next t) ∧
      (MachineInv (facing [.await []] (secondPass 0)) ∧ ∃ t, step (facing [.await []] (secondPass 0)) = .next t) ∧
      MachineInv (facing [.reset] failed) ∧ ∃ t, step (facing [.reset] failed) = .next t :=
  ⟨⟨running_inv _ true fun _ => rfl, _, (step_empty rfl).trans (blockTurn_byte rfl Config.zero_lt_one rfl)⟩,
    ⟨running_inv _ true fun _ => rfl, _, rfl⟩,
    ⟨by simp [facing, failed, idle, Memory.wf], by simp [facing, failed], nofun⟩, _, rfl⟩

/-- A command that ends at once, one that starts an engine, one that is turned away. -/
theorem test_witness_CommandFrame :
    (∃ t, exec (.jk16 .absent) idle = .next t ∧ t.phase ≠ .busy) ∧
      (∃ t, exec (.fn64 .present) idle = .next t ∧ t.opl.alg ≠ .ck ∧ t.opl.alg ≠ .jk) ∧
      (∃ t, exec (.ck64 .present) idle = .next t ∧ t.opl.alg ≠ .fn) ∧
      (∃ t, exec (.ck64 .present) failed = .next t) ∧ ¬ Ready failed :=
  ⟨⟨_, rfl, nofun⟩, ⟨_, rfl, nofun, nofun⟩, ⟨_, rfl, nofun⟩, ⟨_, rfl⟩, test_witness_EveryCommandCompletes.2⟩

theorem test_witness_AbsentIgnoresArgAndBuffer :
    usesBuffer (.jk64 .absent) = false ∧ (∃ t, exec (.jk64 .absent) idle = .next t) ∧ usesBuffer (.tlkup 0) = false ∧
      ∃ t, exec (.tlkup 0) idle = .next t := ⟨rfl, ⟨_, rfl⟩, rfl, _, rfl⟩

end Sys2Proof.Tests
end

section
/-! PROOFS. What may be assumed of the Jenkins absent constants (R8, R144), and that every command completes (R5). -/

namespace Sys2Proof

/-! ### The Jenkins absent constants (R144) -/

theorem Config.jkNull32_toNat : Config.jkNull32.toNat = 15402 + Config.jkNull32Pick.val := by
  have hpick := Config.jkNull32Pick.isLt
  rw [Config.jkNull32, BitVec.toNat_ofNat, Nat.mod_eq_of_lt (by omega)]

/-- `JK_NULL64` counts the numbers from 15402 up and steps over `JK_NULL32`. -/
theorem Config.jkNull64_toNat :
    Config.jkNull64.toNat = if 15402 + Config.jkNull64Pick.val < Config.jkNull32.toNat
      then 15402 + Config.jkNull64Pick.val else 15403 + Config.jkNull64Pick.val := by
  have hpick := Config.jkNull64Pick.isLt
  rw [Config.jkNull64]
  split <;> rw [BitVec.toNat_ofNat, Nat.mod_eq_of_lt (by omega)]

theorem Config.lt_jkNull32_toNat : 15401 < Config.jkNull32.toNat := by
  rw [Config.jkNull32_toNat]; omega

theorem Config.lt_jkNull64_toNat : 15401 < Config.jkNull64.toNat := by
  rw [Config.jkNull64_toNat]; split <;> omega

theorem Config.jkNull64_toNat_ne_jkNull32_toNat : Config.jkNull64.toNat ≠ Config.jkNull32.toNat := by
  rw [Config.jkNull64_toNat]; split <;> omega

namespace Machine

/-- Settles O49: each constant is 15402 or more by its construction, and `JK_NULL64` leaves `JK_NULL32` out. -/
theorem jenkinsNullConstants : Obligations.JenkinsNullConstants := by
  have h32 := Config.lt_jkNull32_toNat
  have h64 := Config.lt_jkNull64_toNat
  refine ⟨rfl, ?_, ?_, h32, h64, ?_⟩
  · intro h; rw [h] at h32; exact absurd h32 (by decide)
  · intro h; rw [h] at h64; exact absurd h64 (by decide)
  · intro h
    have hext : (Config.jkNull32.setWidth 64).toNat = Config.jkNull32.toNat :=
      BitVec.toNat_setWidth_of_le (by omega)
    exact Config.jkNull64_toNat_ne_jkNull32_toNat (by rw [h, hext])

/-! ### Every command completes (R5) -/

/-- In `IDLE` and `DONE` a command is its effect on the state with its word latched (R32). -/
theorem exec_of_ready {s : State} (i : Instr) (h : Ready s) :
    exec i s = .next (cmdEffect i (latchCmd (encode i) s)) := by
  rw [exec_eq_issue, issue_of_ready _ _ h]

/-- The effect of a command raises nothing: it ends at `DONE` or leaves an engine running. -/
theorem cmdEffect_no_exception (i : Instr) (s : State) :
    (cmdEffect i s).ecode = s.ecode ∧ ((cmdEffect i s).phase = .done ∨ (cmdEffect i s).phase = .busy) := by
  rcases cmdEffect_cases i with ⟨v, hv⟩ | ⟨w, hw⟩ | ⟨w, hw⟩ | ⟨w, hw⟩
  · rw [hv]; exact ⟨rfl, .inl rfl⟩
  all_goals rw [hw]; exact ⟨rfl, .inr rfl⟩

/-- Settles O28, by the three branches of a write to `CMD`. -/
theorem everyCommandCompletes : Obligations.EveryCommandCompletes := by
  intro i s
  rcases issue_cases (exec_eq_issue i s).symm with ⟨_, ho⟩ | ⟨hbusy, ho⟩ | ⟨herr, ho⟩
  · exact ⟨_, ho, fun _ => cmdEffect_no_exception i (latchCmd (encode i) s)⟩
  · exact ⟨_, ho, fun hr => by rcases hr with h | h <;> simp [hbusy] at h⟩
  · exact ⟨_, ho, fun hr => by rcases hr with h | h <;> simp [herr] at h⟩

end Machine

end Sys2Proof
end

section
/-! PROOFS. A command runs to its hash whatever harmless turns lie between the block's steps. A running block OWES a
number of block steps and a result, both functions of its state: a block step pays one off and keeps the result, a
harmless turn of the host changes neither. -/

namespace Sys2Proof.Machine

/-! ### What a running block still owes -/

/-- The latches and `BUF` while a command runs over the buffer `bs`: what `HoldsBuffer` becomes at `Issue`. -/
structure Loaded (bs : List U8) (s : State) : Prop where
  len : s.len.toNat = bs.length
  idx : s.idx ≤ s.len
  bytes : ∀ i, i < bs.length → Memory.read s.buf i = bs[i]?

/-- The operands not yet taken in. -/
def bytesLeft (bs : List U8) (s : State) : List U8 := bs.drop s.idx.toNat

/-- `{C1, C2}` after the bytes still to come. -/
def ckAhead (bs : List U8) (s : State) : U32 × U32 := ckLoop mix s.idx.toNat (s.c1, s.c2) (bytesLeft bs s)

/-- The hash that ends the present pass of the Jenkins engine. -/
def jkAhead (bs : List U8) (s : State) : U32 :=
  jkFinal ((bytesLeft bs s).foldl (jkByte (length32 bs)) s.h) (length32 bs)

/-- `HV` after the bytes still to come. -/
def fnAhead (bs : List U8) (s : State) : U64 := (bytesLeft bs s).foldl fnvByte s.hv

/-- `{h1, h2}` of `JK64`, from either pass. -/
def jk64Ahead (bs : List U8) (s : State) : U64 :=
  if s.pass then s.h1l ++ jkAhead bs s
  else jkAhead bs s ++ (if bs.length = 0 then (0 : U32) else jk32 bs (jkAhead bs s ^^^ Config.jkReseed))

/-- The result a running Jenkins command will end with. -/
def jkResultAhead (bs : List U8) (s : State) : U64 :=
  match s.opl.width with
  | .w16 => presented (fold32to16 (jkAhead bs s))
  | .w32 => presented (jkAhead bs s)
  | .w64 => presented (jk64Ahead bs s)

/-- The result a running command will end with. -/
def resultAhead (bs : List U8) (s : State) : U64 :=
  match s.opl.alg with
  | .ck => presented (fold s.opl.width (ckPair (ckAhead bs s)))
  | .jk => jkResultAhead bs s
  | .fn => presented (fold s.opl.width (fnAhead bs s))

/-- The next `Finish` is the pass change of `JK64` (R34). -/
abbrev FirstOfTwo (s : State) : Prop := s.opl.alg = .jk ∧ s.opl.width = .w64 ∧ s.pass = false ∧ s.len ≠ 0

/-- The block steps a running command still takes: the bytes left and a `Finish`, and a second pass where one follows. -/
def stepsAhead (s : State) : Nat :=
  (s.len.toNat - s.idx.toNat + 1) + if FirstOfTwo s then s.len.toNat + 1 else 0

/-- The block takes `n` more steps of a command over `bs` and then holds `r` in `RESULT`. -/
inductive Owes (bs : List U8) (s : State) : Nat → U64 → Prop
  | running (busy : s.phase = .busy) (loaded : Loaded bs s) : Owes bs s (stepsAhead s) (resultAhead bs s)
  | finished (done : s.phase = .done) : Owes bs s 0 s.result

section Owes

variable {bs : List U8} {s : State} {n : Nat} {r : U64}

theorem stepsAhead_pos (s : State) : 0 < stepsAhead s := by unfold stepsAhead; omega

theorem Owes.busy_of_pos (h : Owes bs s n r) (hn : 0 < n) : s.phase = .busy := by
  cases h with
  | running busy _ => exact busy
  | finished _ => exact absurd hn (Nat.lt_irrefl 0)

theorem Owes.done_of_zero (h : Owes bs s n r) (hn : n = 0) : s.phase = .done ∧ s.result = r := by
  cases h with
  | running _ _ => exact absurd hn (stepsAhead_pos s).ne'
  | finished done => exact ⟨done, rfl⟩

/-- What is owed does not depend on the agenda, the last read, the draws, or `BUF` outside the operand. -/
theorem Owes.with_host_side (h : Owes bs s n r) (m : Memory) (g : List Turn) (d : Option ReadValue) (k : Nat)
    (hm : ∀ i, i < bs.length → Memory.read s.buf i = bs[i]? → Memory.read m i = bs[i]?) :
    Owes bs { s with buf := m, agenda := g, readData := d, drawn := k } n r := by
  cases h with
  | running busy loaded =>
    exact .running (s := { s with buf := m, agenda := g, readData := d, drawn := k }) busy
      ⟨loaded.len, loaded.idx, fun i hi => hm i hi (loaded.bytes i hi)⟩
  | finished done => exact .finished (s := { s with buf := m, agenda := g, readData := d, drawn := k }) done

/-! ### The length and the byte at `IDX`, as the pure functions see them -/

theorem Loaded.len32_eq (h : Loaded bs s) : len32 s = length32 bs := by
  rw [len32, length32, ← h.len, BitVec.ofNat_toNat]

theorem Loaded.len_eq_zero_iff (h : Loaded bs s) : s.len = 0 ↔ bs.length = 0 := by
  rw [← h.len, ← BitVec.toNat_inj]; rfl

theorem Loaded.idx_lt_length (h : Loaded bs s) (hi : s.idx < s.len) : s.idx.toNat < bs.length :=
  h.len ▸ BitVec.lt_def.1 hi

theorem Loaded.bytesLeft_nil (h : Loaded bs s) (hi : s.idx = s.len) : bytesLeft bs s = [] := by
  rw [bytesLeft, hi, h.len, List.drop_length]

/-- There is a byte at an index below `LEN`, and it is the next of the bytes left. -/
theorem Loaded.next_byte (h : Loaded bs s) (hi : s.idx < s.len) :
    ∃ b, Memory.read s.buf s.idx.toNat = some b ∧ bytesLeft bs s = b :: bs.drop (s.idx.toNat + 1) := by
  have hlt := h.idx_lt_length hi
  exact ⟨bs[s.idx.toNat], by rw [h.bytes _ hlt, List.getElem?_eq_getElem hlt], List.drop_eq_getElem_cons hlt⟩

/-! ### `ByteStep` pays off one step -/

theorem advance_idx_toNat (hi : s.idx < s.len) : (advance s).idx.toNat = s.idx.toNat + 1 := by
  have hlen := s.len.isLt
  rw [BitVec.lt_def] at hi
  rw [advance, BitVec.toNat_add, Config.toNat_one, Nat.mod_eq_of_lt (by omega)]

/-- The block after `ByteStep` on `b`. -/
def afterByte (b : U8) (s : State) : State := advance (absorb b s)

theorem afterByte_idx_toNat (b : U8) (hi : s.idx < s.len) : (afterByte b s).idx.toNat = s.idx.toNat + 1 := by
  have hi' : (absorb b s).idx < (absorb b s).len := by simpa using hi
  rw [afterByte, advance_idx_toNat hi', absorb_idx]

theorem Loaded.afterByte (h : Loaded bs s) (b : U8) (hi : s.idx < s.len) : Loaded bs (afterByte b s) where
  len := by simpa [Machine.afterByte] using h.len
  idx := by
    rw [BitVec.le_def, afterByte_idx_toNat b hi]
    simpa [Machine.afterByte] using BitVec.lt_def.1 hi
  bytes := by simpa [Machine.afterByte] using h.bytes

theorem bytesLeft_afterByte (b : U8) (hi : s.idx < s.len) :
    bytesLeft bs (afterByte b s) = bs.drop (s.idx.toNat + 1) := by
  rw [bytesLeft, afterByte_idx_toNat b hi]

section

variable {b : U8} (hi : s.idx < s.len) (hb : bytesLeft bs s = b :: bs.drop (s.idx.toNat + 1))

include hi hb

theorem ckAhead_afterByte (ho : s.opl.alg = .ck) : ckAhead bs (afterByte b s) = ckAhead bs s := by
  have hacc : ((afterByte b s).c1, (afterByte b s).c2) = ckByte mix (s.c1, s.c2) b (BitVec.ofNat 32 s.idx.toNat) := by
    rw [BitVec.ofNat_toNat]
    simp [afterByte, absorb, ho, idx32]
  rw [ckAhead, ckAhead, bytesLeft_afterByte b hi, afterByte_idx_toNat b hi, hacc, hb, ckLoop]

theorem jkAhead_afterByte (hl : Loaded bs s) (ho : s.opl.alg = .jk) : jkAhead bs (afterByte b s) = jkAhead bs s := by
  have hacc : (afterByte b s).h = jkByte (length32 bs) s.h b := by simp [afterByte, absorb, ho, hl.len32_eq]
  rw [jkAhead, jkAhead, bytesLeft_afterByte b hi, hacc, hb, List.foldl_cons]

theorem fnAhead_afterByte (ho : s.opl.alg = .fn) : fnAhead bs (afterByte b s) = fnAhead bs s := by
  have hacc : (afterByte b s).hv = fnvByte s.hv b := by simp [afterByte, absorb, ho]
  rw [fnAhead, fnAhead, bytesLeft_afterByte b hi, hacc, hb, List.foldl_cons]

theorem resultAhead_afterByte (hl : Loaded bs s) : resultAhead bs (afterByte b s) = resultAhead bs s := by
  have hopl : (afterByte b s).opl = s.opl := by simp [afterByte]
  have hpass : (afterByte b s).pass = s.pass := by simp [afterByte]
  have hh1l : (afterByte b s).h1l = s.h1l := by simp [afterByte]
  cases ho : s.opl.alg with
  | ck => simp only [resultAhead, hopl, ho, ckAhead_afterByte hi hb ho]; rw [hopl]
  | fn => simp only [resultAhead, hopl, ho, fnAhead_afterByte hi hb ho]; rw [hopl]
  | jk => simp only [resultAhead, jkResultAhead, jk64Ahead, hopl, hpass, hh1l, ho, jkAhead_afterByte hi hb hl ho]

end

theorem stepsAhead_afterByte (b : U8) (hi : s.idx < s.len) : stepsAhead (afterByte b s) = stepsAhead s - 1 := by
  have hfirst : FirstOfTwo (afterByte b s) ↔ FirstOfTwo s := by simp [FirstOfTwo, afterByte]
  have hlen : (afterByte b s).len = s.len := by simp [afterByte]
  have hlt := BitVec.lt_def.1 hi
  simp only [stepsAhead, hfirst, hlen, afterByte_idx_toNat b hi]
  omega

/-! ### `Finish` pays off one step -/

/-- `Finish` of the first of two passes changes the pass and leaves the result owed as it was (R118). -/
theorem resultAhead_startSecondPass (hl : Loaded bs s) (hi : s.idx = s.len) (hf : FirstOfTwo s) :
    resultAhead bs (startSecondPass s) = resultAhead bs s := by
  obtain ⟨ho, hw, hp, hn⟩ := hf
  have hne : bs.length ≠ 0 := fun h => hn (hl.len_eq_zero_iff.2 h)
  have hfirst : jkAhead bs s = jkFinal s.h (length32 bs) := by rw [jkAhead, hl.bytesLeft_nil hi, List.foldl_nil]
  have hsecond : jkAhead bs (startSecondPass s) = jk32 bs (jkFinal s.h (length32 bs) ^^^ Config.jkReseed) := by
    rw [jkAhead, bytesLeft, startSecondPass_idx, startSecondPass_h, hl.len32_eq]; rfl
  simp [resultAhead, jkResultAhead, jk64Ahead, ho, hw, hp, hne, hfirst, hsecond, hl.len32_eq]

theorem stepsAhead_startSecondPass (hi : s.idx = s.len) (hf : FirstOfTwo s) :
    stepsAhead (startSecondPass s) = stepsAhead s - 1 := by
  have hsecond : ¬ FirstOfTwo (startSecondPass s) := by simp [FirstOfTwo]
  simp only [stepsAhead, if_neg hsecond, if_pos hf, startSecondPass_len, startSecondPass_idx, hi]
  simp

theorem finish_of_firstOfTwo (hf : FirstOfTwo s) : finish s = startSecondPass s := by
  obtain ⟨ho, hw, hp, hn⟩ := hf
  simp only [finish, ho, finishJk, hw, finishJk64, hp, if_neg hn]
  rfl

theorem stepsAhead_of_last (hi : s.idx = s.len) (hf : ¬ FirstOfTwo s) : stepsAhead s = 1 := by
  simp [stepsAhead, if_neg hf, hi]

theorem finishJk_of_last (hl : Loaded bs s) (hi : s.idx = s.len) (ho : s.opl.alg = .jk) (hf : ¬ FirstOfTwo s) :
    finishJk s.opl.width s = releaseJk (complete (jkResultAhead bs s) s) := by
  have hj : jkFinal s.h (len32 s) = jkAhead bs s := by
    rw [jkAhead, hl.bytesLeft_nil hi, List.foldl_nil, hl.len32_eq]
  cases hw : s.opl.width with
  | w16 => simp only [finishJk, completeJk, jkResultAhead, hw, hj]
  | w32 => simp only [finishJk, completeJk, jkResultAhead, hw, hj]
  | w64 =>
    cases hp : s.pass with
    | true => simp [finishJk, finishJk64, completeJk, jkResultAhead, jk64Ahead, hw, hj, hp]
    | false =>
      have h0 : s.len = 0 := by_contra fun h => hf ⟨ho, hw, hp, h⟩
      simp [finishJk, finishJk64, completeJk, jkResultAhead, jk64Ahead, hw, hj, hp, h0, hl.len_eq_zero_iff.1 h0]

/-- `Finish` of the last pass ends the command with the result owed (R34). -/
theorem finish_of_last (hl : Loaded bs s) (hi : s.idx = s.len) (hf : ¬ FirstOfTwo s) :
    (finish s).phase = .done ∧ (finish s).result = resultAhead bs s := by
  cases ho : s.opl.alg with
  | ck =>
    have hc : (s.c1, s.c2) = ckAhead bs s := by rw [ckAhead, hl.bytesLeft_nil hi, ckLoop]
    simp [finish, ho, finishCk, resultAhead, hc]
  | fn =>
    have hv : s.hv = fnAhead bs s := by rw [fnAhead, hl.bytesLeft_nil hi, List.foldl_nil]
    simp [finish, ho, finishFn, resultAhead, hv]
  | jk => simp [finish, ho, resultAhead, finishJk_of_last hl hi ho hf]

/-! ### One turn, one step, a run -/

/-- A turn of the block pays off one step; where nothing is owed it changes nothing. -/
theorem Owes.blockTurn (h : Owes bs s n r) : ∃ t, blockTurn s = .next t ∧ Owes bs t (n - 1) r := by
  cases h with
  | finished done => exact ⟨s, by simp [Machine.blockTurn, done], .finished done⟩
  | running busy loaded =>
    by_cases hi : s.idx < s.len
    · obtain ⟨b, hread, hleft⟩ := loaded.next_byte hi
      have hb : (afterByte b s).phase = .busy := by simpa [afterByte] using busy
      refine ⟨_, blockTurn_byte busy hi hread, ?_⟩
      rw [← stepsAhead_afterByte b hi, ← resultAhead_afterByte hi hleft loaded]
      exact .running hb (loaded.afterByte b hi)
    · have hi : s.idx = s.len := BitVec.le_antisymm loaded.idx (BitVec.not_lt.1 hi)
      refine ⟨_, blockTurn_finish busy hi, ?_⟩
      by_cases hf : FirstOfTwo s
      · rw [finish_of_firstOfTwo hf, ← stepsAhead_startSecondPass hi hf, ← resultAhead_startSecondPass loaded hi hf]
        exact .running busy ⟨loaded.len, Nat.zero_le _, loaded.bytes⟩
      · obtain ⟨hdone, hres⟩ := finish_of_last loaded hi hf
        rw [stepsAhead_of_last hi hf, ← hres]
        exact .finished hdone

/-- The turns that a turn puts on the agenda: what follows a poll. -/
def Turn.followUp (p : Phase) : Turn → List Turn
  | .await gaps => afterPoll gaps p
  | _ => []

/-- What a harmless turn `u` leaves unchanged. -/
structure TurnFrame (u : Turn) (s t : State) : Prop where
  arg : t.arg = s.arg
  cmd : t.cmd = s.cmd
  ecode : t.ecode = s.ecode
  agenda : t.agenda = u.followUp s.phase ++ s.agenda
  buf : ∀ a, (∀ j b, u = .host (.writeBuf j b) → j.toNat ≠ a) → Memory.read t.buf a = Memory.read s.buf a

/-- No step of the block writes `ARG`, `CMD`, `ECODE` or `BUF` (R40). -/
theorem TurnFrame.block {t : State} (h : Machine.blockTurn s = .next t) : TurnFrame .block s t := by
  rcases blockTurn_cases h with ⟨_, ho⟩ | ⟨_, _, ho⟩ | ⟨_, _, ho⟩ | ⟨_, _, ho⟩
  · cases ho; exact ⟨rfl, rfl, rfl, rfl, fun _ _ => rfl⟩
  · rcases byteStep_cases ho with ⟨b, _, ht⟩ | ⟨_, ht⟩
    · cases ht; exact ⟨by simp, by simp, by simp, by simp [Turn.followUp], by simp⟩
    · cases ht
  · cases ho
    rcases finish_cases s with ⟨v, _, hf⟩ | ⟨v, _, hf⟩ | ⟨v, _, hf⟩ | ⟨_, _, _, hf⟩
    all_goals rw [hf]; exact ⟨rfl, rfl, rfl, rfl, fun _ _ => rfl⟩
  · cases ho; exact ⟨rfl, rfl, rfl, rfl, fun _ _ => rfl⟩

/-- A harmless store keeps every byte of the operand. -/
theorem read_write_harmless {m : Memory} {i : BitVec Config.lenw} {b : U8}
    (h : Harmless bs (.host (.writeBuf i b))) (a : Nat) (ha : a < bs.length) (hm : Memory.read m a = bs[a]?) :
    Memory.read (Memory.write m i.toNat b) a = bs[a]? := by
  by_cases hai : a = i.toNat
  · subst hai
    rw [Memory.read_write_self, h.resolve_left (Nat.not_le.2 ha)]
  · rw [Memory.read_write_other _ _ hai, hm]

/-- A harmless store is never refused. -/
theorem Owes.writeBuf (h : Owes bs s n r) {i : BitVec Config.lenw} {b : U8}
    (hu : Harmless bs (.host (.writeBuf i b))) : writeBuf i b s = .next (storeByte i.toNat b s) := by
  rcases writeBuf_cases (rfl : Machine.writeBuf i b s = _) with ⟨_, hbusy, hi, hne⟩ | ⟨ho, _⟩
  · cases h with
    | finished done => rw [done] at hbusy; cases hbusy
    | running _ loaded =>
      have hlt : i.toNat < bs.length := loaded.len ▸ BitVec.lt_def.1 hi
      exact absurd ((loaded.bytes _ hlt).trans (hu.resolve_left (Nat.not_le.2 hlt))) hne
  · exact ho

/-- A register read changes nothing of the block (R27). -/
theorem readReg_eq (reg : HostReg) (s : State) : ∃ d k, readReg reg s = { s with readData := d, drawn := k } := by
  rcases readReg_cases reg s with ⟨v, hv⟩ | ⟨_, _, hv⟩
  · exact ⟨some v, s.drawn, hv⟩
  · exact ⟨_, s.drawn + 1, hv⟩

/-- A harmless turn is taken; only a step of the block changes what is owed. -/
theorem Owes.takeTurn (h : Owes bs s n r) {u : Turn} (hu : Harmless bs u) :
    ∃ t, takeTurn u s = .next t ∧ TurnFrame u s t ∧ Owes bs t (n - if u = .block then 1 else 0) r := by
  have same (g : List Turn) (d : Option ReadValue) (k : Nat) :
      Owes bs { s with agenda := g, readData := d, drawn := k } n r := h.with_host_side s.buf g d k fun _ _ hm => hm
  match u, hu with
  | .block, _ =>
    obtain ⟨t, ht, hn⟩ := h.blockTurn
    exact ⟨t, ht, .block ht, hn⟩
  | .await gaps, _ => exact ⟨_, rfl, ⟨rfl, rfl, rfl, rfl, fun _ _ => rfl⟩, same _ _ _⟩
  | .host (.read reg), _ =>
    obtain ⟨d, k, hread⟩ := readReg_eq reg s
    exact ⟨_, congrArg Host.Outcome.next hread, ⟨rfl, rfl, rfl, rfl, fun _ _ => rfl⟩, same _ _ _⟩
  | .host (.writeStatus _), _ => exact ⟨s, rfl, ⟨rfl, rfl, rfl, rfl, fun _ _ => rfl⟩, h⟩
  | .host (.writeResult _), _ => exact ⟨s, rfl, ⟨rfl, rfl, rfl, rfl, fun _ _ => rfl⟩, h⟩
  | .host (.writeBuf i b), hu =>
    refine ⟨_, h.writeBuf hu, ⟨rfl, rfl, rfl, rfl, fun a ha => ?_⟩,
      h.with_host_side _ s.agenda s.readData s.drawn (read_write_harmless hu)⟩
    exact Memory.read_write_other _ _ (ha i b rfl).symm

/-- What a run over harmless turns leaves unchanged; it plans no stores but those already on the agenda. -/
structure RunFrame (s t : State) : Prop where
  arg : t.arg = s.arg
  cmd : t.cmd = s.cmd
  ecode : t.ecode = s.ecode
  stores : ∀ j b, Turn.host (.writeBuf j b) ∈ t.agenda → Turn.host (.writeBuf j b) ∈ s.agenda
  buf : ∀ a, (∀ j b, Turn.host (.writeBuf j b) ∈ s.agenda → j.toNat ≠ a) → Memory.read t.buf a = Memory.read s.buf a

theorem RunFrame.refl (s : State) : RunFrame s s := ⟨rfl, rfl, rfl, fun _ _ h => h, fun _ _ => rfl⟩

theorem RunFrame.trans {s t v : State} (h₁ : RunFrame s t) (h₂ : RunFrame t v) : RunFrame s v where
  arg := h₂.arg.trans h₁.arg
  cmd := h₂.cmd.trans h₁.cmd
  ecode := h₂.ecode.trans h₁.ecode
  stores j b h := h₁.stores j b (h₂.stores j b h)
  buf a ha := (h₂.buf a fun j b h => ha j b (h₁.stores j b h)).trans (h₁.buf a ha)

/-- The turn that the next step takes. -/
def nextTurn (s : State) : Turn := s.agenda.head?.getD .block

theorem step_eq_takeTurn (s : State) : step s = takeTurn (nextTurn s) (withAgenda s.agenda.tail s) := by
  cases ha : s.agenda with
  | nil => rw [step_of_head_block (by rw [ha]; rfl), nextTurn, ha]; rfl
  | cons u rest => rw [nextTurn, ha]; exact step_turn ha

theorem nextTurn_harmless (h : Undisturbed bs s) : Harmless bs (nextTurn s) := by
  cases ha : s.agenda with
  | nil => rw [nextTurn, ha]; trivial
  | cons u rest => rw [nextTurn, ha]; exact h u (by simp [ha])

theorem mem_agenda_of_nextTurn {u : Turn} (h : nextTurn s = u) (hu : u ≠ .block) : u ∈ s.agenda := by
  cases ha : s.agenda with
  | nil => rw [nextTurn, ha] at h; exact absurd h.symm hu
  | cons v rest => rw [nextTurn, ha] at h; exact List.mem_cons.2 (.inl h.symm)

/-- What follows a turn is harmless and no store. -/
theorem followUp_harmless {u v : Turn} {p : Phase} (h : v ∈ u.followUp p) :
    Harmless bs v ∧ ∀ j b, v ≠ .host (.writeBuf j b) := by
  cases u with
  | await gaps => rcases mem_afterPoll h with ⟨_, rfl | rfl⟩ | ⟨_, rfl⟩ <;> exact ⟨trivial, nofun⟩
  | block => cases h
  | host a => cases h
  | reset => cases h

/-- One step while only harmless turns are to come. -/
theorem Owes.step (h : Owes bs s n r) (hu : Undisturbed bs s) :
    ∃ t, step s = .next t ∧ t.agenda = (nextTurn s).followUp s.phase ++ s.agenda.tail ∧ RunFrame s t ∧
      Undisturbed bs t ∧ Owes bs t (n - if nextTurn s = .block then 1 else 0) r := by
  have hrest : Owes bs (withAgenda s.agenda.tail s) n r :=
    h.with_host_side s.buf s.agenda.tail s.readData s.drawn fun _ _ hm => hm
  obtain ⟨t, ht, frame, howes⟩ := hrest.takeTurn (nextTurn_harmless hu)
  have hag : t.agenda = (nextTurn s).followUp s.phase ++ s.agenda.tail := frame.agenda
  refine ⟨t, (step_eq_takeTurn s).trans ht, hag, ⟨frame.arg, frame.cmd, frame.ecode, ?_, ?_⟩, ?_, howes⟩
  · intro j b hm
    rw [hag, List.mem_append] at hm
    exact hm.elim (fun hm => absurd rfl ((followUp_harmless (bs := bs) hm).2 j b)) List.mem_of_mem_tail
  · exact fun a ha => frame.buf a fun j b hj => ha j b (mem_agenda_of_nextTurn hj nofun)
  · intro v hv
    rw [hag, List.mem_append] at hv
    exact hv.elim (fun hv => (followUp_harmless hv).1) fun hv => hu v (List.mem_of_mem_tail hv)

/-- A run of any length: the block steps taken are what was paid off. -/
theorem Owes.runSteps (h : Owes bs s n r) (hu : Undisturbed bs s) (m : Nat) :
    ∃ v, runSteps m s = .next v ∧ RunFrame s v ∧ Owes bs v (n - blocksTaken m s) r := by
  induction m generalizing s n with
  | zero => exact ⟨s, rfl, .refl s, h⟩
  | succ m ih =>
    obtain ⟨t, ht, _, hframe, hut, howes⟩ := h.step hu
    obtain ⟨v, hv, hframe', howes'⟩ := ih howes hut
    refine ⟨v, (runSteps_succ m ht).trans hv, hframe.trans hframe', ?_⟩
    rwa [blocksTaken_succ m ht, ← Nat.sub_sub]

/-- A bound on the turns before the block moves while it is `BUSY`: a poll after no block step uses up a gap. -/
def turnsBeforeBlock : List Turn → Nat
  | .await gaps :: _ => gaps.length + 1
  | .host _ :: rest => turnsBeforeBlock rest + 1
  | _ => 0

/-- A harmless turn that is not the block's brings the block's next turn nearer. -/
theorem turnsBeforeBlock_lt (hu : Undisturbed bs s) (hnext : nextTurn s ≠ .block) :
    turnsBeforeBlock ((nextTurn s).followUp .busy ++ s.agenda.tail) < turnsBeforeBlock s.agenda := by
  have hharm := nextTurn_harmless hu
  cases ha : s.agenda with
  | nil => exact absurd (by rw [nextTurn, ha]; rfl) hnext
  | cons u rest =>
    have hn : nextTurn s = u := by rw [nextTurn, ha]; rfl
    rw [hn] at hnext hharm ⊢
    cases u with
    | block => exact absurd rfl hnext
    | reset => exact hharm.elim
    | host a => exact Nat.lt_succ_self _
    | await gaps =>
      match gaps with
      | [] => exact Nat.zero_lt_succ _
      | 0 :: gs => exact Nat.lt_succ_self _
      | (k + 1) :: gs => exact Nat.zero_lt_succ _

/-- The block takes all the steps it owes some time (R179). -/
theorem Owes.pays_off (h : Owes bs s n r) (hu : Undisturbed bs s) : ∃ m, n ≤ blocksTaken m s := by
  induction n generalizing s with
  | zero => exact ⟨0, Nat.zero_le _⟩
  | succ n ih =>
    induction hk : turnsBeforeBlock s.agenda using Nat.strong_induction_on generalizing s with
    | _ k ihk =>
      obtain ⟨t, ht, hag, _, hut, howes⟩ := h.step hu
      by_cases hnext : nextTurn s = .block
      · rw [if_pos hnext] at howes
        obtain ⟨m, hm⟩ := ih howes hut
        have hhead : s.agenda.head?.getD .block = .block := hnext
        exact ⟨m + 1, by rw [blocksTaken_succ m ht, if_pos hhead]; omega⟩
      · rw [if_neg hnext] at howes
        have hlt : turnsBeforeBlock t.agenda < k := by
          rw [hag, h.busy_of_pos n.succ_pos, ← hk]
          exact turnsBeforeBlock_lt hu hnext
        obtain ⟨m, hm⟩ := ihk _ hlt howes hut rfl
        exact ⟨m + 1, by rw [blocksTaken_succ m ht]; omega⟩

/-! ### From the command word to the result -/

/-- What the effect of a command leaves unchanged. -/
theorem cmdEffect_frame (i : Instr) (s : State) :
    (cmdEffect i s).arg = s.arg ∧ (cmdEffect i s).cmd = s.cmd ∧ (cmdEffect i s).agenda = s.agenda ∧
      (cmdEffect i s).buf = s.buf := by
  rcases cmdEffect_cases i with ⟨v, hv⟩ | ⟨w, hw⟩ | ⟨w, hw⟩ | ⟨w, hw⟩
  · rw [hv]; exact ⟨rfl, rfl, rfl, rfl⟩
  all_goals rw [hw]; exact ⟨rfl, rfl, rfl, rfl⟩

/-- A command whose effect owes `n` steps and `r` runs to `r` in `n` block steps. -/
theorem runsTo_of_owes {i : Instr} (hr : Ready s) (hu : Undisturbed bs s)
    (h : Owes bs (cmdEffect i (latchCmd (encode i) s)) n r) : RunsTo i n s r := by
  obtain ⟨harg, hcmd, hag, hbuf⟩ := cmdEffect_frame i (latchCmd (encode i) s)
  have hecode := (cmdEffect_no_exception i (latchCmd (encode i) s)).1
  have hu' : Undisturbed bs (cmdEffect i (latchCmd (encode i) s)) := fun u hm => hu u (hag ▸ hm)
  refine ⟨_, exec_of_ready i hr, h.pays_off hu', fun m => ?_⟩
  obtain ⟨v, hv, frame, howes⟩ := h.runSteps hu' m
  refine ⟨v, hv, fun hlt => howes.busy_of_pos (Nat.sub_pos_of_lt hlt),
    fun hle => howes.done_of_zero (Nat.sub_eq_zero_of_le hle), frame.cmd.trans hcmd, frame.arg.trans harg,
    frame.ecode.trans hecode, fun a ha => ?_⟩
  rw [frame.buf a (hag ▸ ha), hbuf, latchCmd_buf]

/-- How `Issue` seeds each engine (R22 to R24). -/
def seedFor : Alg → State → State
  | .ck => seedCk
  | .jk => seedJk
  | .fn => seedFn

theorem cmdEffect_ofHash_present (op : HashOp) :
    cmdEffect (Instr.ofHash op .present) = launch op (seedFor op.alg) := by
  obtain ⟨a, w⟩ := op
  cases a <;> cases w <;> rfl

theorem eq_ofHash_of_usesBuffer {i : Instr} (h : usesBuffer i = true) : ∃ op, i = Instr.ofHash op .present := by
  cases i with
  | tlkup _ => cases h
  | ck16 p => exact ⟨⟨.ck, .w16⟩, congrArg Instr.ck16 (eq_of_beq h)⟩
  | ck32 p => exact ⟨⟨.ck, .w32⟩, congrArg Instr.ck32 (eq_of_beq h)⟩
  | ck64 p => exact ⟨⟨.ck, .w64⟩, congrArg Instr.ck64 (eq_of_beq h)⟩
  | jk16 p => exact ⟨⟨.jk, .w16⟩, congrArg Instr.jk16 (eq_of_beq h)⟩
  | jk32 p => exact ⟨⟨.jk, .w32⟩, congrArg Instr.jk32 (eq_of_beq h)⟩
  | jk64 p => exact ⟨⟨.jk, .w64⟩, congrArg Instr.jk64 (eq_of_beq h)⟩
  | fn16 p => exact ⟨⟨.fn, .w16⟩, congrArg Instr.fn16 (eq_of_beq h)⟩
  | fn32 p => exact ⟨⟨.fn, .w32⟩, congrArg Instr.fn32 (eq_of_beq h)⟩
  | fn64 p => exact ⟨⟨.fn, .w64⟩, congrArg Instr.fn64 (eq_of_beq h)⟩

/-- A command that reads no buffer ends at once, with a value of its own (R65). -/
theorem cmdEffect_of_not_usesBuffer {i : Instr} (h : usesBuffer i = false) : ∃ v, cmdEffect i = complete v := by
  cases i with
  | tlkup _ => exact ⟨_, rfl⟩
  | ck16 p | ck32 p | ck64 p | jk16 p | jk32 p | jk64 p | fn16 p | fn32 p | fn64 p =>
    cases p with
    | present => cases h
    | absent => exact ⟨_, rfl⟩

/-- The latches and the engine after `Issue` of a present operand (R32). -/
theorem launch_latches (op : HashOp) (s : State) :
    (launch op (seedFor op.alg) s).phase = .busy ∧ (launch op (seedFor op.alg) s).opl = op ∧
      (launch op (seedFor op.alg) s).len = s.arg ∧ (launch op (seedFor op.alg) s).idx.toNat = 0 ∧
      (launch op (seedFor op.alg) s).pass = false ∧ (launch op (seedFor op.alg) s).buf = s.buf := by
  obtain ⟨a, w⟩ := op
  cases a <;> exact ⟨rfl, rfl, rfl, rfl, rfl, rfl⟩

theorem loaded_launch (op : HashOp) (hb : HoldsBuffer s bs) : Loaded bs (launch op (seedFor op.alg) s) := by
  obtain ⟨harg, hbytes⟩ := hb
  obtain ⟨_, _, hlen, hidx, _, hbuf⟩ := launch_latches op s
  exact ⟨by rw [hlen, harg], by rw [BitVec.le_def, hidx]; exact Nat.zero_le _, by rwa [hbuf]⟩

theorem stepsAhead_launch (op : HashOp) (hb : HoldsBuffer s bs) :
    stepsAhead (launch op (seedFor op.alg) s) = blockSteps op bs.length := by
  have hl := loaded_launch op hb
  obtain ⟨_, hopl, _, hidx, hpass, _⟩ := launch_latches op s
  have hfirst : FirstOfTwo (launch op (seedFor op.alg) s) ↔ op = ⟨.jk, .w64⟩ ∧ bs.length ≠ 0 := by
    obtain ⟨a, w⟩ := op
    simp only [FirstOfTwo, hopl, hpass, ne_eq, hl.len_eq_zero_iff, HashOp.mk.injEq, true_and, and_assoc]
  simp only [stepsAhead, blockSteps, hfirst, hl.len, hidx]
  split <;> omega

/-- What is owed at `Issue` is the hash of the operand (R13): no earlier register value enters it (R36). -/
theorem resultAhead_launch (op : HashOp) (s : State) :
    resultAhead bs (launch op (seedFor op.alg) s) = presented (hashResult op bs) := by
  obtain ⟨_, hopl, _, hidx, hpass, _⟩ := launch_latches op s
  have hleft : bytesLeft bs (launch op (seedFor op.alg) s) = bs := by rw [bytesLeft, hidx, List.drop_zero]
  obtain ⟨a, w⟩ := op
  cases a with
  | ck =>
    have hall : ckAhead bs (launch ⟨.ck, w⟩ (seedFor .ck) s) = ckLoop mix 0 (ckSeed1, ckSeed2) bs := by
      rw [ckAhead, hidx, hleft]; rfl
    exact congrArg (fun c => presented (fold w (ckPair c))) hall
  | fn =>
    have hall : fnAhead bs (launch ⟨.fn, w⟩ (seedFor .fn) s) = fnvWide bs := by rw [fnAhead, hleft]; rfl
    exact congrArg (fun v => presented (fold w v)) hall
  | jk =>
    have hall : jkAhead bs (launch ⟨.jk, w⟩ (seedFor .jk) s) = jk32 bs 0 := by rw [jkAhead, hleft]; rfl
    cases w <;> simp [resultAhead, jkResultAhead, jk64Ahead, hashResult, jk64, hopl, hpass, hall]

/-- A hash command over a buffer the host supplied runs to the hash of its bytes, in `blockSteps` steps (R13, R35,
R179). -/
theorem runsTo_hashResult (op : HashOp) (hr : Ready s) (hb : HoldsBuffer s bs) (hu : Undisturbed bs s) :
    RunsTo (Instr.ofHash op .present) (blockSteps op bs.length) s (presented (hashResult op bs)) := by
  have hb' : HoldsBuffer (latchCmd (encode (Instr.ofHash op .present)) s) bs := hb
  have howes := Owes.running (launch_latches op _).1 (loaded_launch op hb')
  rw [stepsAhead_launch op hb', resultAhead_launch, ← cmdEffect_ofHash_present] at howes
  exact runsTo_of_owes hr hu howes

/-- A command that ends with `v` at once runs to `v` in no block step. -/
theorem runsTo_of_complete {i : Instr} {v : U64} (hi : cmdEffect i = complete v) (hr : Ready s)
    (hu : Undisturbed bs s) : RunsTo i 0 s v :=
  runsTo_of_owes hr hu (by rw [hi]; exact .finished rfl)

end Owes

/-- Settles O18: from both states the command runs to the same function of itself and of the bytes. -/
theorem resultIndependentOfHistory : Obligations.ResultIndependentOfHistory := by
  intro i s₁ s₂ bs hr₁ hr₂ hu₁ hu₂ hbuf
  cases hi : usesBuffer i with
  | true =>
    obtain ⟨op, rfl⟩ := eq_ofHash_of_usesBuffer hi
    obtain ⟨hb₁, hb₂⟩ := hbuf hi
    exact ⟨_, _, runsTo_hashResult op hr₁ hb₁ hu₁, runsTo_hashResult op hr₂ hb₂ hu₂⟩
  | false =>
    obtain ⟨v, hv⟩ := cmdEffect_of_not_usesBuffer hi
    exact ⟨0, v, runsTo_of_complete hv hr₁ hu₁, runsTo_of_complete hv hr₂ hu₂⟩

end Sys2Proof.Machine
end

section
/-! PROOFS. The invariant of the machine: it holds at reset, and every step of every agent keeps it (R28, R31). -/

namespace Sys2Proof.Machine

/-! ### The steps of the block -/

/-- Outside `ERROR` the invariant leaves `ECODE` 0 (R28). -/
theorem MachineInv.ecode_none {s : State} (h : MachineInv s) (hp : s.phase ≠ .error) : s.ecode = .none := by
  obtain ⟨_, hcode, _⟩ := h
  exact not_not.1 fun hne => hp (hcode.1 hne)

/-- A state with no command running needs only the canonical `BUF` and the right `ECODE`. -/
theorem machineInv_of_not_busy {s : State} (hwf : Memory.wf s.buf = true)
    (hcode : s.ecode ≠ .none ↔ s.phase = .error) (hp : s.phase ≠ .busy) : MachineInv s :=
  ⟨hwf, hcode, fun hbusy => absurd hbusy hp⟩

/-- `ByteStep` below `LEN` brings `IDX` to `LEN` at most. -/
theorem MachineInv.afterByte {s : State} (h : MachineInv s) (b : U8) (hp : s.phase = .busy) (hi : s.idx < s.len) :
    MachineInv (afterByte b s) := by
  obtain ⟨hwf, hcode, hrun⟩ := h
  obtain ⟨_, hpass⟩ := hrun hp
  refine ⟨by simpa [Machine.afterByte] using hwf, by simpa [Machine.afterByte] using hcode, fun _ => ⟨?_, ?_⟩⟩
  · rw [BitVec.le_def, afterByte_idx_toNat b hi]
    simpa [Machine.afterByte] using BitVec.lt_def.1 hi
  · simpa [Machine.afterByte] using hpass

/-- `Finish` ends the command, or starts the one second pass the invariant allows. -/
theorem MachineInv.finish {s : State} (h : MachineInv s) (hp : s.phase = .busy) : MachineInv (finish s) := by
  have hcode : s.ecode = .none := h.ecode_none (by simp [hp])
  obtain ⟨hwf, _, _⟩ := h
  rcases finish_cases s with ⟨r, _, hf⟩ | ⟨r, _, hf⟩ | ⟨r, _, hf⟩ | ⟨hopl, _, hlen, hf⟩
  case inr.inr.inr =>
    rw [hf]
    exact ⟨hwf, by simp [hcode, hp], fun _ => ⟨Nat.zero_le _, fun _ => ⟨hopl, hlen⟩⟩⟩
  all_goals rw [hf]; exact machineInv_of_not_busy hwf (by simp [hcode]) (by simp)

theorem MachineInv.blockTurn {s t : State} (h : MachineInv s) (ht : blockTurn s = .next t) : MachineInv t := by
  rcases blockTurn_cases ht with ⟨_, ho⟩ | ⟨hp, hi, ho⟩ | ⟨hp, _, ho⟩ | ⟨_, _, ho⟩
  · cases ho; exact h
  · rcases byteStep_cases ho with ⟨b, _, hb⟩ | ⟨_, hb⟩
    · cases hb; exact h.afterByte b hp hi
    · cases hb
  · cases ho; exact h.finish hp
  · cases ho; exact h

/-! ### The accesses of the host -/

theorem MachineInv.raise {s : State} (h : MachineInv s) {code : ECode} (hc : code ≠ .none) :
    MachineInv (raise code s) := by
  obtain ⟨hwf, _, _⟩ := h
  exact machineInv_of_not_busy hwf (by simp [hc]) (by simp)

/-- `Issue` starts a run at `IDX` 0, in the first pass (R32). -/
theorem MachineInv.launch {s : State} (h : MachineInv s) (op : HashOp) (hp : s.phase ≠ .error) :
    MachineInv (launch op (seedFor op.alg) s) := by
  obtain ⟨hbusy, _, _, hidx, hpass, hbuf⟩ := launch_latches op s
  have hecode : (Machine.launch op (seedFor op.alg) s).ecode = .none := by
    rw [← h.ecode_none hp]
    cases op.alg <;> rfl
  obtain ⟨hwf, _, _⟩ := h
  refine ⟨by rwa [hbuf], by simp [hecode, hbusy], fun _ => ⟨?_, by simp [hpass]⟩⟩
  rw [BitVec.le_def, hidx]
  exact Nat.zero_le _

/-- The effect of a command on a state that accepts one. -/
theorem MachineInv.cmdEffect {s : State} (h : MachineInv s) (i : Instr) (hp : s.phase ≠ .error) :
    MachineInv (cmdEffect i s) := by
  rcases cmdEffect_cases i with ⟨v, hv⟩ | ⟨w, hw⟩ | ⟨w, hw⟩ | ⟨w, hw⟩
  · rw [hv]
    have hcode := h.ecode_none hp
    obtain ⟨hwf, _, _⟩ := h
    exact machineInv_of_not_busy hwf (by simp [hcode]) (by simp)
  · rw [hw]; exact h.launch ⟨.ck, w⟩ hp
  · rw [hw]; exact h.launch ⟨.jk, w⟩ hp
  · rw [hw]; exact h.launch ⟨.fn, w⟩ hp

theorem Ready.not_error {s : State} (h : Ready s) : s.phase ≠ .error := by
  rcases h with h | h <;> simp [h]

theorem MachineInv.writeCmd {s t : State} {w : U16} (h : MachineInv s) (ht : writeCmd w s = .next t) :
    MachineInv t := by
  rcases writeCmd_cases ht with ⟨hr, i, _, ho⟩ | ⟨_, e, _, ho⟩ | ⟨_, ho⟩ | ⟨_, ho⟩
  · cases ho
    have hlatched : MachineInv (latchCmd (encode i) s) := h
    exact hlatched.cmdEffect i hr.not_error
  · cases ho
    have hlatched : MachineInv (latchCmd w s) := h
    exact hlatched.raise nofun
  · cases ho; exact h.raise nofun
  · cases ho; exact h

theorem MachineInv.writeArg {s t : State} {v : BitVec Config.lenw} (h : MachineInv s) (ht : writeArg v s = .next t) :
    MachineInv t := by
  rcases writeArg_cases ht with ⟨_, ho⟩ | ⟨_, ho⟩ | ⟨_, ho⟩
  · cases ho; exact h
  · cases ho; exact h.raise nofun
  · cases ho; exact h

/-- A store at a `LENW`-bit index keeps `BUF` canonical (R40). -/
theorem MachineInv.writeBuf {s t : State} {i : BitVec Config.lenw} {b : U8} (h : MachineInv s)
    (ht : writeBuf i b s = .next t) : MachineInv t := by
  obtain ⟨hwf, hcode, hrun⟩ := h
  rcases writeBuf_cases ht with ⟨ho, _⟩ | ⟨ho, _⟩
  · cases ho
  · cases ho; exact ⟨Memory.write_wf s.buf b i.isLt hwf, hcode, hrun⟩

theorem MachineInv.readReg {s : State} (h : MachineInv s) (reg : HostReg) : MachineInv (readReg reg s) := by
  obtain ⟨d, k, hread⟩ := readReg_eq reg s
  rw [hread]
  exact h

theorem MachineInv.hostAccess {s t : State} {a : Access} (h : MachineInv s) (ht : hostAccess a s = .next t) :
    MachineInv t := by
  cases a with
  | writeArg v => exact h.writeArg ht
  | writeCmd w => exact h.writeCmd ht
  | writeStatus v => cases ht; exact h
  | writeResult v => cases ht; exact h
  | read reg => cases ht; exact h.readReg reg
  | writeBuf i b => exact h.writeBuf ht

/-! ### Every step, and reset -/

theorem MachineInv.resetBlock {s : State} (h : MachineInv s) : MachineInv (resetBlock s) := by
  obtain ⟨hwf, _, _⟩ := h
  exact machineInv_of_not_busy hwf (by simp) (by simp)

/-- Settles O57, by the agent that moves. -/
theorem everyStepKeepsInvariant : Obligations.EveryStepKeepsInvariant := by
  intro s t h ht
  have hrest (rest : List Turn) : MachineInv (withAgenda rest s) := h
  rcases step_cases ht with ⟨_, hb⟩ | ⟨rest, ⟨_, hb⟩ | ⟨a, _, ha⟩ | ⟨gaps, _, ho⟩ | ⟨_, ho⟩⟩
  · exact h.blockTurn hb
  · exact (hrest rest).blockTurn hb
  · exact (hrest rest).hostAccess ha
  · cases ho; exact h
  · cases ho; exact (hrest rest).resetBlock

/-- Settles O56: at reset no command runs, and `BUF` lists nothing. -/
theorem resetMeetsInvariant : Obligations.ResetMeetsInvariant :=
  machineInv_of_not_busy reset_buf_wf (by simp [State.reset]) (by simp [State.reset])

end Sys2Proof.Machine
end

section
/-! PROOFS. The runs of the hash commands (R35, R179), each read off from the hash of its operation (R13). -/

namespace Sys2Proof.Machine

/-- A 64-bit result is presented as it is (R29). -/
theorem presented_of_w64 (x : U64) : presented x = x := BitVec.signExtend_eq x

/-- One pass takes a block step per byte and a `Finish` (R179). -/
theorem blockSteps_of_onePass {op : HashOp} {n : Nat} (h : op ≠ ⟨.jk, .w64⟩ ∨ n = 0) : blockSteps op n = n + 1 :=
  if_neg fun ⟨hop, hn⟩ => h.elim (absurd hop) hn.elim

/-- `JK64` over a buffer that is not empty takes two passes (R118, R179). -/
theorem blockSteps_of_twoPasses {n : Nat} (h : n ≠ 0) : blockSteps ⟨.jk, .w64⟩ n = 2 * n + 2 := if_pos ⟨rfl, h⟩

/-- A hash command that takes one pass runs to the hash of its operand in `len + 1` block steps. -/
theorem runsTo_in_onePass {s : State} {bs : List U8} (op : HashOp) (hop : op ≠ ⟨.jk, .w64⟩ ∨ bs.length = 0)
    (hr : Ready s) (hb : HoldsBuffer s bs) (hu : Undisturbed bs s) :
    RunsTo (Instr.ofHash op .present) (bs.length + 1) s (presented (hashResult op bs)) := by
  rw [← blockSteps_of_onePass hop]
  exact runsTo_hashResult op hr hb hu

/-- Settles O14: `CK64` presents `ck_wide` as it is, the narrower commands its folds. -/
theorem customRunsToFold : Obligations.CustomRunsToFold := by
  intro s bs hr hb hu
  have run (w : Width) := runsTo_in_onePass ⟨.ck, w⟩ (.inl (by simp)) hr hb hu
  have h64 := run .w64
  rw [presented_of_w64] at h64
  exact ⟨run .w16, run .w32, h64⟩

/-- Settles O15: `FN64` presents `fnv_wide` as it is, the narrower commands its folds. -/
theorem fnvRunsToFold : Obligations.FnvRunsToFold := by
  intro s bs hr hb hu
  have run (w : Width) := runsTo_in_onePass ⟨.fn, w⟩ (.inl (by simp)) hr hb hu
  have h64 := run .w64
  rw [presented_of_w64] at h64
  exact ⟨run .w16, run .w32, h64⟩

/-- Settles O16: both commands take one pass. -/
theorem jenkinsRunsToHash : Obligations.JenkinsRunsToHash := fun _ _ hr hb hu =>
  ⟨runsTo_in_onePass ⟨.jk, .w16⟩ (.inl (by decide)) hr hb hu,
    runsTo_in_onePass ⟨.jk, .w32⟩ (.inl (by decide)) hr hb hu⟩

/-- The 64-bit Jenkins value over a buffer that is not empty (R116). -/
theorem jk64_of_ne_nil (reseed : U32) {bs : List U8} (h : bs ≠ []) :
    jk64 reseed bs = jk32 bs 0 ++ jk32 bs (jk32 bs 0 ^^^ reseed) := by
  rw [jk64, if_neg (mt List.eq_nil_of_length_eq_zero h)]

/-- Over the empty buffer both halves are 0 (R118). -/
theorem jk64_nil (reseed : U32) : jk64 reseed [] = 0 := by
  have h0 : jk32 [] 0 = 0 := by decide
  rw [jk64, h0, List.length_nil, if_pos rfl]
  rfl

/-- Settles O17: two passes over a buffer that is not empty, one over the empty buffer. -/
theorem jenkinsWideRunsTwice : Obligations.JenkinsWideRunsTwice := by
  intro s bs hr hb hu
  refine ⟨fun hne => ?_, ?_⟩
  · have hlen : bs.length ≠ 0 := mt List.eq_nil_of_length_eq_zero hne
    have h := runsTo_hashResult ⟨.jk, .w64⟩ hr hb hu
    rwa [blockSteps_of_twoPasses hlen, presented_of_w64, hashResult, jk64_of_ne_nil _ hne] at h
  · rintro rfl
    have h := runsTo_in_onePass ⟨.jk, .w64⟩ (.inr rfl) hr hb hu
    rwa [presented_of_w64, hashResult, jk64_nil] at h

end Sys2Proof.Machine
end

section
/-! PROOFS. What a turn of the block and a write of a command leave unchanged (R22 to R27, R40, R65). -/

namespace Sys2Proof.Machine

/-! ### The block -/

/-- What a turn of the block leaves unchanged beyond `TurnFrame`: the latches of the command and the accumulators of the
engines it does not run. -/
structure EngineFrame (s t : State) : Prop where
  len : t.len = s.len
  opl : t.opl = s.opl
  readData : t.readData = s.readData
  custom : s.opl.alg ≠ .ck → t.c1 = s.c1 ∧ t.c2 = s.c2
  jenkins : s.opl.alg ≠ .jk → t.h = s.h ∧ t.h1l = s.h1l
  fnv : s.opl.alg ≠ .fn → t.hv = s.hv

theorem EngineFrame.refl (s : State) : EngineFrame s s :=
  ⟨rfl, rfl, rfl, fun _ => ⟨rfl, rfl⟩, fun _ => ⟨rfl, rfl⟩, fun _ => rfl⟩

/-- `ByteStep` works on the accumulators of the engine that `OPL` names (R33). -/
theorem EngineFrame.afterByte (b : U8) (s : State) : EngineFrame s (afterByte b s) := by
  cases ho : s.opl.alg with
  | ck =>
    have hb : Machine.afterByte b s = advance (absorbCk b s) := by simp only [Machine.afterByte, absorb, ho]
    rw [hb]; exact ⟨rfl, rfl, rfl, fun hne => absurd ho hne, fun _ => ⟨rfl, rfl⟩, fun _ => rfl⟩
  | jk =>
    have hb : Machine.afterByte b s = advance (absorbJk b s) := by simp only [Machine.afterByte, absorb, ho]
    rw [hb]; exact ⟨rfl, rfl, rfl, fun _ => ⟨rfl, rfl⟩, fun hne => absurd ho hne, fun _ => rfl⟩
  | fn =>
    have hb : Machine.afterByte b s = advance (absorbFn b s) := by simp only [Machine.afterByte, absorb, ho]
    rw [hb]; exact ⟨rfl, rfl, rfl, fun _ => ⟨rfl, rfl⟩, fun _ => ⟨rfl, rfl⟩, fun hne => absurd ho hne⟩

/-- `Finish` works on the accumulators of the engine that `OPL` names (R34). -/
theorem EngineFrame.finish (s : State) : EngineFrame s (finish s) := by
  rcases finish_cases s with ⟨v, ho, hf⟩ | ⟨v, ho, hf⟩ | ⟨v, ho, hf⟩ | ⟨hopl, _, _, hf⟩
  · rw [hf]; exact ⟨rfl, rfl, rfl, fun hne => absurd ho hne, fun _ => ⟨rfl, rfl⟩, fun _ => rfl⟩
  · rw [hf]; exact ⟨rfl, rfl, rfl, fun _ => ⟨rfl, rfl⟩, fun hne => absurd ho hne, fun _ => rfl⟩
  · rw [hf]; exact ⟨rfl, rfl, rfl, fun _ => ⟨rfl, rfl⟩, fun _ => ⟨rfl, rfl⟩, fun hne => absurd ho hne⟩
  · have ho : s.opl.alg = .jk := by rw [hopl]
    rw [hf]; exact ⟨rfl, rfl, rfl, fun _ => ⟨rfl, rfl⟩, fun hne => absurd ho hne, fun _ => rfl⟩

theorem EngineFrame.blockTurn {s t : State} (h : blockTurn s = .next t) : EngineFrame s t := by
  rcases blockTurn_cases h with ⟨_, ho⟩ | ⟨_, _, ho⟩ | ⟨_, _, ho⟩ | ⟨_, _, ho⟩
  · cases ho; exact .refl s
  · rcases byteStep_cases ho with ⟨b, _, ht⟩ | ⟨_, ht⟩
    · cases ht; exact .afterByte b s
    · cases ht
  · cases ho; exact .finish s
  · cases ho; exact .refl s

/-- Settles O45. -/
theorem blockTurnFrame : Obligations.BlockTurnFrame := by
  intro s t h
  have host := TurnFrame.block h
  have engine := EngineFrame.blockTurn h
  exact ⟨host.arg, host.cmd, host.ecode, engine.len, engine.opl, host.agenda, engine.readData,
    fun a => host.buf a nofun, engine.custom, engine.jenkins, engine.fnv⟩

/-! ### The write of a command -/

/-- What the effect of a command leaves unchanged beyond `cmdEffect_frame`. -/
structure CmdFrame (s t : State) : Prop where
  readData : t.readData = s.readData
  h1l : t.h1l = s.h1l
  idle : t.phase ≠ .busy → t.len = s.len ∧ t.opl = s.opl ∧ t.idx = s.idx ∧ t.pass = s.pass ∧ t.c1 = s.c1 ∧
    t.c2 = s.c2 ∧ t.h = s.h ∧ t.hv = s.hv ∧ t.drawn = s.drawn
  custom : t.opl.alg ≠ .ck → t.c1 = s.c1 ∧ t.c2 = s.c2
  jenkins : t.opl.alg ≠ .jk → t.h = s.h
  fnv : t.opl.alg ≠ .fn → t.hv = s.hv

/-- Ending at once or raising an exception leaves all of them. -/
theorem CmdFrame.of_status (s : State) (w : U16) (v : U64) (p : Phase) (e : ECode) :
    CmdFrame s { s with cmd := w, result := v, phase := p, ecode := e } :=
  ⟨rfl, rfl, fun _ => ⟨rfl, rfl, rfl, rfl, rfl, rfl, rfl, rfl, rfl⟩, fun _ => ⟨rfl, rfl⟩, fun _ => rfl, fun _ => rfl⟩

/-- A present operand seeds the accumulators of its own engine (R22 to R24). -/
theorem CmdFrame.launch (op : HashOp) (w : U16) (s : State) :
    CmdFrame s (launch op (seedFor op.alg) (latchCmd w s)) := by
  obtain ⟨hbusy, _⟩ := launch_latches op (latchCmd w s)
  have hidle {P : Prop} (hne : (Machine.launch op (seedFor op.alg) (latchCmd w s)).phase ≠ .busy) : P :=
    absurd hbusy hne
  obtain ⟨a, width⟩ := op
  cases a with
  | ck => exact ⟨rfl, rfl, hidle, fun hne => absurd rfl hne, fun _ => rfl, fun _ => rfl⟩
  | jk => exact ⟨rfl, rfl, hidle, fun _ => ⟨rfl, rfl⟩, fun hne => absurd rfl hne, fun _ => rfl⟩
  | fn => exact ⟨rfl, rfl, hidle, fun _ => ⟨rfl, rfl⟩, fun _ => rfl, fun hne => absurd rfl hne⟩

theorem CmdFrame.cmdEffect (i : Instr) (w : U16) (s : State) : CmdFrame s (cmdEffect i (latchCmd w s)) := by
  rcases cmdEffect_cases i with ⟨v, hv⟩ | ⟨width, hw⟩ | ⟨width, hw⟩ | ⟨width, hw⟩
  · rw [hv]; exact .of_status s w v .done s.ecode
  · rw [hw]; exact .launch ⟨.ck, width⟩ w s
  · rw [hw]; exact .launch ⟨.jk, width⟩ w s
  · rw [hw]; exact .launch ⟨.fn, width⟩ w s

/-- Settles O58, by the three branches of a write to `CMD`. -/
theorem commandFrame : Obligations.CommandFrame := by
  intro i s t h
  rw [exec_eq_issue] at h
  rcases issue_cases h with ⟨hr, ho⟩ | ⟨_, ho⟩ | ⟨_, ho⟩ <;> cases ho
  · obtain ⟨harg, _, hag, hbuf⟩ := cmdEffect_frame i (latchCmd (encode i) s)
    have frame := CmdFrame.cmdEffect i (encode i) s
    exact ⟨harg, hag, frame.readData, frame.h1l, fun a => by rw [hbuf, latchCmd_buf], frame.idle, frame.custom,
      frame.jenkins, frame.fnv, fun hnr => absurd hr hnr⟩
  · have frame := CmdFrame.of_status s s.cmd s.result .error .busyViolation
    exact ⟨rfl, rfl, rfl, rfl, fun _ => rfl, frame.idle, frame.custom, frame.jenkins, frame.fnv, fun _ => rfl⟩
  · have frame := CmdFrame.of_status s s.cmd s.result s.phase s.ecode
    exact ⟨rfl, rfl, rfl, rfl, fun _ => rfl, frame.idle, frame.custom, frame.jenkins, frame.fnv, fun _ => rfl⟩

end Sys2Proof.Machine
end

section
/-! PROOFS. The single steps: a command word and its launch, the host's registers, `Finish` of each engine, and the
presentation of a result (R27 to R34, R37). -/

namespace Sys2Proof.Machine

/-! ### Which agent a step serves -/

theorem writeCmd_of_decode {w : U16} {i : Instr} (h : decodeWord w = .ok i) (s : State) : writeCmd w s = exec i s := by
  simp only [writeCmd, h]

/-- A step with the host to move is its access, the turn having left the agenda. -/
theorem step_host {s : State} {a : Access} {rest : List Turn} (h : s.agenda = .host a :: rest) :
    step s = hostAccess a (withAgenda rest s) := step_turn h

theorem decodeTableWord_eq_some {nbits w : Nat} {i : Instr} (h : decodeTableWord nbits w = some i) :
    ∃ word, tableWord nbits w = some word ∧ decodeWord word = .ok i := by
  unfold decodeTableWord at h
  split at h
  · cases h
  · next word hword =>
    split at h
    · next j hj => cases h; exact ⟨word, hword, hj⟩
    · cases h

/-- The word that `withFetchWord` places is the host's next access. -/
theorem withFetchWord_of_tableWord {nbits w : Nat} {word : U16} (h : tableWord nbits w = some word) (s : State) :
    s.withFetchWord nbits w = withAgenda (.host (.writeCmd word) :: s.agenda) s := by
  simp only [State.withFetchWord, h]; rfl

/-- Settles O6. -/
theorem stepRunsWrittenCommand : Obligations.StepRunsWrittenCommand := by
  refine ⟨fun s w i rest ha hd => (step_host ha).trans (writeCmd_of_decode hd _), fun s nbits w i h => ?_⟩
  obtain ⟨word, hword, hd⟩ := decodeTableWord_eq_some h
  have hnext : (withAgenda (.host (.writeCmd word) :: s.agenda) s).agenda = .host (.writeCmd word) :: s.agenda := rfl
  rw [withFetchWord_of_tableWord hword, step_host hnext]
  exact writeCmd_of_decode hd s

/-- Outside `BUSY` no block step is enabled (R31). -/
theorem blockTurn_of_not_busy {s : State} (h : s.phase ≠ .busy) : blockTurn s = .next s := by
  rcases blockTurn_cases (rfl : blockTurn s = _) with ⟨_, ho⟩ | ⟨hp, _⟩ | ⟨hp, _⟩ | ⟨hp, _⟩
  · exact ho
  all_goals exact absurd hp h

/-- Settles O7. -/
theorem emptyAgendaGivesBlockTurn : Obligations.EmptyAgendaGivesBlockTurn :=
  fun _ => ⟨step_empty, fun _ ha => step_turn ha, blockTurn_of_not_busy⟩

/-! ### The launch of an engine (R22 to R24, R32) -/

/-- In `IDLE` and `DONE` a command with a present operand launches its engine. -/
theorem exec_present_of_ready {s : State} (op : HashOp) (h : Ready s) :
    exec (Instr.ofHash op .present) s =
      .next (launch op (seedFor op.alg) (latchCmd (encode (Instr.ofHash op .present)) s)) := by
  rw [exec_of_ready _ h, cmdEffect_ofHash_present]

/-- Settles O11: the seeds are `CK_SEED1` and `CK_SEED2`. -/
theorem presentCustomLaunches : Obligations.PresentCustomLaunches := fun s h =>
  ⟨(Config.unspecified s.drawn).result, s.drawn + 1, exec_present_of_ready ⟨.ck, .w16⟩ h,
    exec_present_of_ready ⟨.ck, .w32⟩ h, exec_present_of_ready ⟨.ck, .w64⟩ h⟩

/-- Settles O12. -/
theorem presentJenkinsLaunches : Obligations.PresentJenkinsLaunches := fun s h =>
  ⟨(Config.unspecified s.drawn).result, s.drawn + 1, exec_present_of_ready ⟨.jk, .w16⟩ h,
    exec_present_of_ready ⟨.jk, .w32⟩ h, exec_present_of_ready ⟨.jk, .w64⟩ h⟩

/-- Settles O13: the seed is `FNV_BASIS` (PRESUMED, log 5). -/
theorem presentFnvLaunches : Obligations.PresentFnvLaunches := fun s h =>
  ⟨(Config.unspecified s.drawn).result, s.drawn + 1, exec_present_of_ready ⟨.fn, .w16⟩ h,
    exec_present_of_ready ⟨.fn, .w32⟩ h, exec_present_of_ready ⟨.fn, .w64⟩ h⟩

/-! ### The host's registers (R27, R28, R37) -/

/-- Settles O29. -/
theorem resetStateValues : Obligations.ResetStateValues := ⟨rfl, rfl, rfl, rfl⟩

theorem writeArg_of_ready {s : State} (v : BitVec Config.lenw) (h : Ready s) : writeArg v s = .next (latchArg v s) := by
  rcases h with h | h <;> simp [writeArg, h]

/-- Settles O31. -/
theorem writeArgLatchesLength : Obligations.WriteArgLatchesLength := by
  intro s v rest ha hr
  have hr' : Ready (withAgenda rest s) := hr
  exact (step_host ha).trans (writeArg_of_ready v hr')

theorem readReg_result_of_done {s : State} (h : s.phase = .done) :
    readReg .result s = answer (.result s.result) s := if_pos h

theorem readReg_result_of_not_done {s : State} (h : s.phase ≠ .done) : readReg .result s = answerUnspecified s :=
  if_neg h

/-- Settles O32, by the register read. -/
theorem registerReadsAnswer : Obligations.RegisterReadsAnswer := by
  refine fun s rest => ⟨step_host, step_host, step_host, fun ha hp => ?_, fun ha hp => ?_⟩
  · have hp' : (withAgenda rest s).phase = .done := hp
    exact (step_host ha).trans (congrArg Host.Outcome.next (readReg_result_of_done hp'))
  · have hp' : (withAgenda rest s).phase ≠ .done := hp
    exact ⟨_, _, (step_host ha).trans (congrArg Host.Outcome.next (readReg_result_of_not_done hp'))⟩

/-- The three fields of a word put together from a code of `ECODE` and one of `STATE`. -/
theorem extract_status_fields : ∀ e p : BitVec 2,
    ((0 : BitVec 28) ++ e ++ p).extractLsb' 4 28 = 0 ∧ ((0 : BitVec 28) ++ e ++ p).extractLsb' 0 2 = p ∧
      ((0 : BitVec 28) ++ e ++ p).extractLsb' 2 2 = e := by decide

/-- Settles O33: the fields read back, then the code of each phase and of each exception. -/
theorem statusWordLayout : Obligations.StatusWordLayout := by
  intro s
  obtain ⟨hzero, hstate, hecode⟩ := extract_status_fields s.ecode.code s.phase.code
  refine ⟨hzero, hstate.trans ?_, hecode.trans ?_⟩
  · cases s.phase <;> rfl
  · cases s.ecode <;> rfl

/-- Settles O34. -/
theorem readOnlyRegistersIgnoreWrites : Obligations.ReadOnlyRegistersIgnoreWrites :=
  fun _ _ => ⟨fun _ => step_host, fun _ => step_host⟩

/-! ### The presentation of a result (R29, R146) -/

theorem Width.bits_le_64 (w : Width) : w.bits ≤ 64 := by cases w <;> decide

theorem presented_setWidth {n : Nat} (h : n ≤ 64) (x : BitVec n) : (presented x).setWidth n = x := by
  ext i hi
  have hi64 : i < 64 := by omega
  simp [presented, BitVec.getElem_signExtend, hi, hi64]

/-- Settles O55: no width is above 64. -/
theorem presentedResultKeepsPattern : Obligations.PresentedResultKeepsPattern := fun w res =>
  ⟨presented_setWidth (Width.bits_le_64 w) res, BitVec.toInt_signExtend_of_le (Width.bits_le_64 w)⟩

/-- The presented fold of a wide value, width by width. -/
theorem presented_fold (w : Width) (x : U64) :
    presented (fold w x) = match w with
      | .w16 => (fold64to16 x).signExtend 64
      | .w32 => (fold64to32 x).signExtend 64
      | .w64 => x := by
  cases w with
  | w16 => rfl
  | w32 => rfl
  | w64 => exact presented_of_w64 x

/-! ### `Finish` (R34, R36) -/

/-- Settles O41. -/
theorem customFinish : Obligations.CustomFinish := by
  intro s hp ho hi
  refine ⟨(Config.unspecified s.drawn).c1, (Config.unspecified s.drawn).c2, s.drawn + 1, ?_⟩
  have hf : finish s = finishCk s.opl.width s := by simp only [finish, ho]
  rw [blockTurn_finish hp hi, hf, finishCk, presented_fold]
  rfl

/-- Settles O42. -/
theorem fnvFinish : Obligations.FnvFinish := by
  intro s hp ho hi
  refine ⟨(Config.unspecified s.drawn).hv, s.drawn + 1, ?_⟩
  have hf : finish s = finishFn s.opl.width s := by simp only [finish, ho]
  rw [blockTurn_finish hp hi, hf, finishFn, presented_fold]
  rfl

/-- `Finish` of the Jenkins engine at the width that `OPL` names. -/
theorem finish_of_jk {s : State} {w : Width} (h : s.opl = ⟨.jk, w⟩) : finish s = finishJk w s := by
  simp only [finish, h]

theorem blockTurn_finish_jk {s : State} {w : Width} (hp : s.phase = .busy) (hi : s.idx = s.len)
    (ho : s.opl = ⟨.jk, w⟩) : blockTurn s = .next (finishJk w s) := by
  rw [blockTurn_finish hp hi, finish_of_jk ho]

/-- Settles O43: `jkFinal` is the three lines of R112. -/
theorem jenkinsFinish : Obligations.JenkinsFinish := fun s hp hi =>
  ⟨fun ho => ⟨(Config.unspecified s.drawn).h, (Config.unspecified s.drawn).h1l, s.drawn + 1,
      blockTurn_finish_jk hp hi ho⟩,
    fun ho => ⟨(Config.unspecified s.drawn).h, (Config.unspecified s.drawn).h1l, s.drawn + 1,
      blockTurn_finish_jk hp hi ho⟩⟩

theorem finishJk64_of_first {s : State} (hpass : s.pass = false) (hl : s.len ≠ 0) :
    finishJk64 s = startSecondPass s := by
  rw [finishJk64, hpass, if_neg Bool.false_ne_true, if_neg hl]

theorem finishJk64_of_empty {s : State} (hpass : s.pass = false) (hl : s.len = 0) :
    finishJk64 s = completeJk (jkFinal s.h (len32 s) ++ (0 : U32)) s := by
  rw [finishJk64, hpass, if_neg Bool.false_ne_true, if_pos hl]

theorem finishJk64_of_second {s : State} (hpass : s.pass = true) :
    finishJk64 s = completeJk (s.h1l ++ jkFinal s.h (len32 s)) s := if_pos hpass

/-- A 64-bit result ends a Jenkins command as it is. -/
theorem completeJk_w64 (x : U64) (s : State) : completeJk x s = releaseJk (complete x s) := by
  rw [completeJk, presented_of_w64]

/-- Settles O44, by the pass and, in the first one, by the length. -/
theorem jenkinsWideFinish : Obligations.JenkinsWideFinish := by
  intro s hp ho hi
  have hturn : blockTurn s = .next (finishJk64 s) := blockTurn_finish_jk hp hi ho
  rw [hturn]
  refine ⟨fun hpass hl => ?_, fun hpass hl => ?_, fun hpass => ?_⟩
  · rw [finishJk64_of_first hpass hl]; rfl
  · rw [finishJk64_of_empty hpass hl, completeJk_w64]; exact ⟨_, _, _, rfl⟩
  · rw [finishJk64_of_second hpass, completeJk_w64]; exact ⟨_, _, _, rfl⟩

end Sys2Proof.Machine
end

section
/-! PROOFS. The buffer space: what a host store does to it, what the block reads of it, and the two stops that come
from it (R40, R53, R54, R176). -/

namespace Sys2Proof.Machine

/-! ### The host's store (R40, R176) -/

/-- A store is taken while no command runs, and during a run where it changes no operand byte. -/
theorem writeBuf_taken {s : State} {i : BitVec Config.lenw} {b : U8}
    (h : s.phase ≠ .busy ∨ s.len ≤ i ∨ Memory.read s.buf i.toNat = some b) :
    writeBuf i b s = .next (storeByte i.toNat b s) := by
  rcases writeBuf_cases (rfl : writeBuf i b s = _) with ⟨_, hbusy, hlt, hne⟩ | ⟨ho, _⟩
  · rcases h with hidle | hle | hsame
    · exact absurd hbusy hidle
    · exact absurd hlt (BitVec.not_lt.2 hle)
    · exact absurd hsame hne
  · exact ho

/-- Settles O36, by the laws of a store: it is read back and leaves every other byte. -/
theorem hostStoreChangesOneByte : Obligations.HostStoreChangesOneByte := by
  intro s i b rest ha h
  have h' : (withAgenda rest s).phase ≠ .busy ∨ (withAgenda rest s).len ≤ i ∨
      Memory.read (withAgenda rest s).buf i.toNat = some b := h
  exact ⟨Memory.write s.buf i.toNat b, (step_host ha).trans (writeBuf_taken h'), Memory.read_write_self _ _ _,
    fun _ hne => Memory.read_write_other _ _ hne⟩

/-! ### The two stops (R54, R176) -/

/-- Where the block stops: at a byte below `LEN` that the host never supplied (R54; log 14). -/
theorem blockTurn_eq_fault_iff {s : State} {f : Fault} :
    blockTurn s = .fault f ↔
      f = .bufferByteMissing ∧ s.phase = .busy ∧ s.idx < s.len ∧ Memory.read s.buf s.idx.toNat = none := by
  constructor
  · intro h
    rcases blockTurn_cases h with ⟨_, ho⟩ | ⟨hp, hi, ho⟩ | ⟨_, _, ho⟩ | ⟨_, _, ho⟩
    case inr.inl =>
      rcases byteStep_cases ho with ⟨_, _, hb⟩ | ⟨hnone, hb⟩ <;> cases hb
      exact ⟨rfl, hp, hi, hnone⟩
    all_goals cases ho
  · rintro ⟨rfl, hp, hi, hnone⟩
    simp only [blockTurn, hp, if_pos hi, byteStep, currentByte, hnone]

/-- The block refuses nothing. -/
theorem blockTurn_ne_refused (s : State) (r : Refusal) : blockTurn s ≠ .refused r := by
  intro h
  rcases blockTurn_cases h with ⟨_, ho⟩ | ⟨_, _, ho⟩ | ⟨_, _, ho⟩ | ⟨_, _, ho⟩
  case inr.inl => rcases byteStep_cases ho with ⟨_, _, hb⟩ | ⟨_, hb⟩ <;> cases hb
  all_goals cases ho

/-- Every access of the host but a store in `BUF` completes (R27). -/
theorem hostAccess_completes_or_stores (a : Access) (s : State) :
    (∃ t, hostAccess a s = .next t) ∨ ∃ i b, a = .writeBuf i b := by
  cases a with
  | writeArg v =>
    rcases writeArg_cases (rfl : writeArg v s = _) with ⟨_, ho⟩ | ⟨_, ho⟩ | ⟨_, ho⟩ <;> exact .inl ⟨_, ho⟩
  | writeCmd w =>
    rcases writeCmd_cases (rfl : writeCmd w s = _) with ⟨_, _, _, ho⟩ | ⟨_, _, _, ho⟩ | ⟨_, ho⟩ | ⟨_, ho⟩ <;>
      exact .inl ⟨_, ho⟩
  | writeStatus v => exact .inl ⟨_, rfl⟩
  | writeResult v => exact .inl ⟨_, rfl⟩
  | read reg => exact .inl ⟨_, rfl⟩
  | writeBuf i b => exact .inr ⟨i, b, rfl⟩

/-- No access of the host faults. -/
theorem hostAccess_ne_fault (a : Access) (s : State) (f : Fault) : hostAccess a s ≠ .fault f := by
  intro h
  rcases hostAccess_completes_or_stores a s with ⟨t, ht⟩ | ⟨i, b, rfl⟩
  · rw [ht] at h; cases h
  · rcases writeBuf_cases h with ⟨ho, _⟩ | ⟨ho, _⟩ <;> cases ho

/-- The host is refused only a store that changes an operand byte of the running command (R176; log 15). -/
theorem hostAccess_refused {a : Access} {s : State} {r : Refusal} (h : hostAccess a s = .refused r) :
    r = .operandChanged ∧ s.phase = .busy ∧
      ∃ i b, a = .writeBuf i b ∧ i < s.len ∧ Memory.read s.buf i.toNat ≠ some b := by
  rcases hostAccess_completes_or_stores a s with ⟨t, ht⟩ | ⟨i, b, rfl⟩
  · rw [ht] at h; cases h
  · rcases writeBuf_cases h with ⟨ho, hbusy, hlt, hne⟩ | ⟨ho, _⟩ <;> cases ho
    exact ⟨rfl, hbusy, i, b, rfl, hlt, hne⟩

/-- Settles O27, by the agent that moves: only the block faults, only the host is refused. -/
theorem stopsOnlyOnHostBreach : Obligations.StopsOnlyOnHostBreach := by
  refine fun s => ⟨fun f h => ?_, fun r h => ?_⟩
  · rcases step_cases h with ⟨_, hb⟩ | ⟨rest, ⟨_, hb⟩ | ⟨a, _, ha⟩ | ⟨_, _, ho⟩ | ⟨_, ho⟩⟩
    · exact blockTurn_eq_fault_iff.1 hb
    · exact (blockTurn_eq_fault_iff (s := withAgenda rest s)).1 hb
    · exact absurd ha (hostAccess_ne_fault a _ f)
    · cases ho
    · cases ho
  · rcases step_cases h with ⟨_, hb⟩ | ⟨rest, ⟨_, hb⟩ | ⟨a, hag, ha⟩ | ⟨_, _, ho⟩ | ⟨_, ho⟩⟩
    · exact absurd hb (blockTurn_ne_refused _ r)
    · exact absurd hb (blockTurn_ne_refused _ r)
    · obtain ⟨hr, hbusy, i, b, rfl, hlt, hne⟩ := hostAccess_refused ha
      exact ⟨hr, hbusy, i, b, rest, hag, hlt, hne⟩
    · cases ho
    · cases ho

/-! ### The block reads nothing at or above `LEN` (R53) -/

/-- The state with another buffer space. -/
def withBuf (m : Memory) (s : State) : State := { s with buf := m }

/-- `ByteStep`, once it has its byte, does not look at `BUF`. -/
theorem afterByte_withBuf (b : U8) (m : Memory) (s : State) :
    afterByte b (withBuf m s) = withBuf m (afterByte b s) := by
  have hopl : (withBuf m s).opl = s.opl := rfl
  cases ho : s.opl.alg <;> simp only [afterByte, absorb, hopl, ho] <;> rfl

/-- `Finish` of `JK64` does not look at `BUF`, in either pass. -/
theorem finishJk64_withBuf (m : Memory) (s : State) : finishJk64 (withBuf m s) = withBuf m (finishJk64 s) := by
  cases hpass : s.pass with
  | true => rw [finishJk64_of_second hpass, finishJk64_of_second (s := withBuf m s) hpass]; rfl
  | false =>
    by_cases hl : s.len = 0
    · rw [finishJk64_of_empty hpass hl, finishJk64_of_empty (s := withBuf m s) hpass hl]; rfl
    · rw [finishJk64_of_first hpass hl, finishJk64_of_first (s := withBuf m s) hpass hl]; rfl

/-- `Finish` does not look at `BUF`. -/
theorem finish_withBuf (m : Memory) (s : State) : finish (withBuf m s) = withBuf m (finish s) := by
  have hopl : (withBuf m s).opl = s.opl := rfl
  cases ho : s.opl.alg with
  | ck => simp only [finish, hopl, ho]; rfl
  | fn => simp only [finish, hopl, ho]; rfl
  | jk =>
    simp only [finish, hopl, ho]
    cases s.opl.width with
    | w16 => rfl
    | w32 => rfl
    | w64 => exact finishJk64_withBuf m s

/-- Above `LEN` no block step is enabled (R31; log 17). -/
theorem blockTurn_of_past_end {s : State} (hp : s.phase = .busy) (hi : s.len < s.idx) : blockTurn s = .next s := by
  have hlt : ¬ s.idx < s.len := by bv_omega
  have hne : s.idx ≠ s.len := by bv_omega
  simp only [blockTurn, hp, if_neg hlt, if_neg hne]

/-- Settles O46: the one byte the block reads is at `IDX`, and only where `IDX` is below `LEN`. -/
theorem blockReadsOnlyBelowLength : Obligations.BlockReadsOnlyBelowLength := by
  intro s m hm
  have hbyte (hi : s.idx < s.len) : Memory.read m s.idx.toNat = Memory.read s.buf s.idx.toNat :=
    hm _ (BitVec.lt_def.1 hi)
  refine ⟨fun t h => ?_, fun f h => ?_⟩
  · rcases blockTurn_cases h with ⟨hp, ho⟩ | ⟨hp, hi, ho⟩ | ⟨hp, hi, ho⟩ | ⟨hp, hi, ho⟩
    · cases ho; exact blockTurn_of_not_busy hp
    · rcases byteStep_cases ho with ⟨b, hb, ht⟩ | ⟨_, ht⟩ <;> cases ht
      have hread : Memory.read m s.idx.toNat = some b := (hbyte hi).trans hb
      exact (blockTurn_byte (s := withBuf m s) hp hi hread).trans
        (congrArg Host.Outcome.next (afterByte_withBuf b m s))
    · cases ho
      exact (blockTurn_finish (s := withBuf m s) hp hi).trans
        (congrArg Host.Outcome.next (finish_withBuf m s))
    · cases ho; exact blockTurn_of_past_end hp hi
  · obtain ⟨hf, hp, hi, hnone⟩ := blockTurn_eq_fault_iff.1 h
    exact blockTurn_eq_fault_iff.2 ⟨hf, hp, hi, (hbyte hi).trans hnone⟩

end Sys2Proof.Machine
end

section
/-! PROOFS. The encoder and the decoder invert each other (R61 to R63), and with that which words are legal (R64) and
what the masks of the opcode map select (R63). -/

namespace Sys2Proof

/-! ### A word and its fields (R61) -/

@[simp] theorem Fields.toWord_ofWord (w : U16) : (Fields.ofWord w).toWord = w := by
  ext i hi
  simp only [Fields.toWord, Fields.ofWord, ← BitVec.getLsbD_eq_getElem, BitVec.getLsbD_append,
    BitVec.getLsbD_extractLsb']
  interval_cases i <;> simp

theorem Fields.toWord_injective : Function.Injective Fields.toWord :=
  Function.LeftInverse.injective Fields.ofWord_toWord

/-- A word is masked field by field. -/
theorem Fields.toWord_and (f : Fields) (asel wsel : BitVec 2) (abs : BitVec 1) (rsv : BitVec 3) (idx8 : U8) :
    f.toWord &&& Fields.toWord ⟨asel, wsel, abs, rsv, idx8⟩ =
      Fields.toWord ⟨f.asel &&& asel, f.wsel &&& wsel, f.abs &&& abs, f.rsv &&& rsv, f.idx8 &&& idx8⟩ := by
  refine BitVec.and_append.trans ?_
  simp only [BitVec.and_append, Fields.toWord]

/-! ### The commands, as the table lookup and the nine hashes (R63) -/

theorem Instr.eq_tlkup_or_ofHash (i : Instr) : (∃ x, i = .tlkup x) ∨ ∃ op p, i = Instr.ofHash op p := by
  cases i with
  | tlkup x => exact .inl ⟨x, rfl⟩
  | ck16 p => exact .inr ⟨⟨.ck, .w16⟩, p, rfl⟩
  | ck32 p => exact .inr ⟨⟨.ck, .w32⟩, p, rfl⟩
  | ck64 p => exact .inr ⟨⟨.ck, .w64⟩, p, rfl⟩
  | jk16 p => exact .inr ⟨⟨.jk, .w16⟩, p, rfl⟩
  | jk32 p => exact .inr ⟨⟨.jk, .w32⟩, p, rfl⟩
  | jk64 p => exact .inr ⟨⟨.jk, .w64⟩, p, rfl⟩
  | fn16 p => exact .inr ⟨⟨.fn, .w16⟩, p, rfl⟩
  | fn32 p => exact .inr ⟨⟨.fn, .w32⟩, p, rfl⟩
  | fn64 p => exact .inr ⟨⟨.fn, .w64⟩, p, rfl⟩

@[simp] theorem Instr.fields_ofHash (op : HashOp) (p : Presence) : (Instr.ofHash op p).fields = op.fields p := by
  obtain ⟨a, w⟩ := op
  cases a <;> cases w <;> rfl

/-! ### The decoder and the encoder -/

theorem decodeFields_fields (i : Instr) : decodeFields i.fields = .ok i := by
  rcases i.eq_tlkup_or_ofHash with ⟨x, rfl⟩ | ⟨op, p, rfl⟩
  · rfl
  · rw [Instr.fields_ofHash]
    simp [decodeFields, HashOp.fields]

theorem Alg.eq_three_of_ofAsel {v : BitVec 2} (h : Alg.ofAsel v = none) : v = 3 := by
  revert v; decide

/-- What the decoder accepts are the fields of the command it answers. -/
theorem fields_of_decodeFields {f : Fields} {i : Instr} (h : decodeFields f = .ok i) : i.fields = f := by
  obtain ⟨asel, wsel, abs, rsv, idx8⟩ := f
  cases ha : Alg.ofAsel asel with
  | none =>
    simp only [decodeFields, ha, ne_eq, ite_not] at h
    split_ifs at h with hrsv hwsel habs
    cases h
    rw [hrsv, hwsel, habs, Alg.eq_three_of_ofAsel ha]; rfl
  | some a =>
    cases hw : Width.ofWsel wsel with
    | none =>
      simp only [decodeFields, ha, hw, ne_eq, ite_not] at h
      split_ifs at h
    | some w =>
      simp only [decodeFields, ha, hw, ne_eq, ite_not] at h
      split_ifs at h with hrsv hidx
      cases h
      rw [Instr.fields_ofHash, HashOp.fields, Alg.asel_of_ofAsel ha, Width.wsel_of_ofWsel hw, Presence.bit_ofBit,
        hrsv, hidx]

/-- A word decodes to a command exactly when it is that command's word (R62, R63). -/
theorem decodeWord_eq_ok_iff {w : U16} {i : Instr} : decodeWord w = .ok i ↔ encode i = w := by
  constructor
  · intro h
    rw [encode, fields_of_decodeFields h, Fields.toWord_ofWord]
  · rintro rfl
    rw [decodeWord, encode, Fields.ofWord_toWord, decodeFields_fields]

/-- Settles O1. -/
theorem decodeOfEncodedCommand : Obligations.DecodeOfEncodedCommand := fun _ => decodeWord_eq_ok_iff.2 rfl

/-- Settles O2. -/
theorem encodeOfDecodedWord : Obligations.EncodeOfDecodedWord := fun _ _ => decodeWord_eq_ok_iff.1

/-- Settles O5. -/
theorem opcodeMapWordsDecode : Obligations.OpcodeMapWordsDecode :=
  ⟨decodeWord_eq_ok_iff.2 rfl, decodeWord_eq_ok_iff.2 rfl, decodeWord_eq_ok_iff.2 rfl, decodeWord_eq_ok_iff.2 rfl,
    decodeWord_eq_ok_iff.2 rfl, decodeWord_eq_ok_iff.2 rfl, decodeWord_eq_ok_iff.2 rfl⟩

/-! ### The legal words (R64) -/

theorem Instr.fields_legal (i : Instr) : i.fields.legal = true := by
  rcases i.eq_tlkup_or_ofHash with ⟨x, rfl⟩ | ⟨op, p, rfl⟩
  · exact Laws.FieldsLegal.tlkup x
  · rw [Instr.fields_ofHash]; exact Laws.FieldsLegal.hash_fields_legal op p

theorem Alg.exists_asel {v : BitVec 2} (h : v ≠ 3) : ∃ a : Alg, a.asel = v := by
  have hsome : (Alg.ofAsel v).isSome := by revert v; decide
  obtain ⟨a, ha⟩ := Option.isSome_iff_exists.1 hsome
  exact ⟨a, Alg.asel_of_ofAsel ha⟩

theorem Width.exists_wsel {v : BitVec 2} (h : v ≠ 0) : ∃ w : Width, w.wsel = v := by
  have hsome : (Width.ofWsel v).isSome := by revert v; decide
  obtain ⟨w, hw⟩ := Option.isSome_iff_exists.1 hsome
  exact ⟨w, Width.wsel_of_ofWsel hw⟩

/-- The clauses of R64 on the fields of a word. -/
theorem Fields.legal_iff (f : Fields) :
    f.legal = true ↔
      f.rsv = 0 ∧ ((f.asel ≠ 3 ∧ f.wsel ≠ 0 ∧ f.idx8 = 0) ∨ (f.asel = 3 ∧ f.wsel = 0 ∧ f.abs = 0)) := by
  simp [Fields.legal, Fields.rsvZero, Fields.isHash, Fields.isTable, and_assoc]

/-- The legal fields are those of the commands: no clause of R64 is too wide or too narrow. -/
theorem exists_fields_iff_legal (f : Fields) : (∃ i : Instr, i.fields = f) ↔ f.legal = true := by
  constructor
  · rintro ⟨i, rfl⟩
    exact i.fields_legal
  · obtain ⟨asel, wsel, abs, rsv, idx8⟩ := f
    rw [Fields.legal_iff]
    rintro ⟨rfl, ⟨hasel, hwsel, rfl⟩ | ⟨rfl, rfl, rfl⟩⟩
    · obtain ⟨a, rfl⟩ := Alg.exists_asel hasel
      obtain ⟨w, rfl⟩ := Width.exists_wsel hwsel
      exact ⟨Instr.ofHash ⟨a, w⟩ (Presence.ofBit abs), by simp [HashOp.fields]⟩
    · exact ⟨.tlkup idx8, rfl⟩

theorem encode_eq_iff_fields_eq {i : Instr} {w : U16} : encode i = w ↔ i.fields = Fields.ofWord w := by
  rw [encode, ← Fields.toWord_injective.eq_iff, Fields.toWord_ofWord]

/-- Settles O3. -/
theorem decodesExactlyLegalWords : Obligations.DecodesExactlyLegalWords := by
  intro w
  simp only [decodeWord_eq_ok_iff, encode_eq_iff_fields_eq]
  exact (exists_fields_iff_legal _).trans (Fields.legal_iff _)

/-! ### The masks of the opcode map (R63) -/

/-- `0xFFEF` clears `ABS` and keeps every other field. -/
theorem Fields.toWord_and_hashMask (f : Fields) : f.toWord &&& 0xFFEF = Fields.toWord { f with abs := 0 } := by
  have hmask : (0xFFEF : U16) = Fields.toWord ⟨.allOnes 2, .allOnes 2, 0#1, .allOnes 3, .allOnes 8⟩ := rfl
  rw [hmask, Fields.toWord_and, BitVec.and_allOnes, BitVec.and_allOnes, BitVec.and_zero, BitVec.and_allOnes,
    BitVec.and_allOnes]
  rfl

/-- `0x00FF` clears `IDX8` and keeps every other field. -/
theorem Fields.toWord_and_tableMask (f : Fields) : f.toWord &&& 0x00FF = Fields.toWord { f with idx8 := 0 } := by
  have hmask : (0x00FF : U16) = Fields.toWord ⟨.allOnes 2, .allOnes 2, .allOnes 1, .allOnes 3, 0#8⟩ := rfl
  rw [hmask, Fields.toWord_and, BitVec.and_allOnes, BitVec.and_allOnes, BitVec.and_allOnes, BitVec.and_allOnes,
    BitVec.and_zero]
  rfl

/-- With `ABS` cleared, a word of a hash command is its word for a present operand, and no other word is. -/
theorem decodes_to_hash_iff_mask (op : HashOp) (w : U16) :
    (∃ p, decodeWord w = .ok (Instr.ofHash op p)) ↔ w &&& 0xFFEF = encode (Instr.ofHash op .present) := by
  obtain ⟨f, rfl⟩ : ∃ f : Fields, f.toWord = w := ⟨_, Fields.toWord_ofWord w⟩
  simp only [decodeWord_eq_ok_iff, Fields.toWord_and_hashMask, encode, Fields.toWord_injective.eq_iff,
    Instr.fields_ofHash]
  constructor
  · rintro ⟨p, rfl⟩
    rfl
  · intro h
    obtain ⟨asel, wsel, abs, rsv, idx8⟩ := f
    simp only [HashOp.fields, Fields.mk.injEq] at h ⊢
    obtain ⟨rfl, rfl, _, rfl, rfl⟩ := h
    exact ⟨Presence.ofBit abs, rfl, rfl, Presence.bit_ofBit abs, rfl, rfl⟩

/-- With `IDX8` cleared, a word of `TLKUP` is `0x0003`, and no other word is. -/
theorem decodes_to_tlkup_iff_mask (w : U16) : (∃ i, decodeWord w = .ok (.tlkup i)) ↔ w &&& 0x00FF = 0x0003 := by
  obtain ⟨f, rfl⟩ : ∃ f : Fields, f.toWord = w := ⟨_, Fields.toWord_ofWord w⟩
  have hword : (0x0003 : U16) = Fields.toWord ⟨3, 0, 0, 0, 0⟩ := rfl
  simp only [decodeWord_eq_ok_iff, Fields.toWord_and_tableMask, encode, hword, Fields.toWord_injective.eq_iff]
  constructor
  · rintro ⟨i, rfl⟩
    rfl
  · intro h
    obtain ⟨asel, wsel, abs, rsv, idx8⟩ := f
    simp only [Fields.mk.injEq] at h
    obtain ⟨rfl, rfl, rfl, rfl, _⟩ := h
    exact ⟨idx8, rfl⟩

/-- Settles O4: each word of the map is the encoding of its command's present form. -/
theorem maskedWordSelectsCommand : Obligations.MaskedWordSelectsCommand := fun w =>
  ⟨decodes_to_tlkup_iff_mask w, decodes_to_hash_iff_mask ⟨.ck, .w16⟩ w, decodes_to_hash_iff_mask ⟨.ck, .w32⟩ w,
    decodes_to_hash_iff_mask ⟨.ck, .w64⟩ w, decodes_to_hash_iff_mask ⟨.jk, .w16⟩ w,
    decodes_to_hash_iff_mask ⟨.jk, .w32⟩ w, decodes_to_hash_iff_mask ⟨.jk, .w64⟩ w,
    decodes_to_hash_iff_mask ⟨.fn, .w16⟩ w, decodes_to_hash_iff_mask ⟨.fn, .w32⟩ w,
    decodes_to_hash_iff_mask ⟨.fn, .w64⟩ w⟩

end Sys2Proof
end

section
/-! PROOFS. An assembler line as the host's turns (R68, R69): the stores of its bytes, the write of their length, the
command, and the polls that end with the read of `RESULT`. -/

namespace Sys2Proof.Machine

/-! ### One poll (R69 steps 4 and 5) -/

theorem step_await {s : State} {gaps : List Nat} {rest : List Turn} (h : s.agenda = .await gaps :: rest) :
    step s = .next (poll gaps (withAgenda rest s)) := step_turn h

/-- Settles O19, by the four values of `STATE`. -/
theorem pollFollowsStatus : Obligations.PollFollowsStatus := by
  intro s gaps rest ha
  refine (step_await ha).trans (congrArg (fun g => Host.Outcome.next
    { s with readData := some (.status (statusWord s)), agenda := g }) ?_)
  show afterPoll gaps s.phase ++ rest = _
  cases s.phase with
  | idle => rfl
  | busy => exact List.append_assoc _ _ _
  | done => rfl
  | error => rfl

/-! ### The stores of a buffer (R69 step 1) -/

/-- `BUF` after the host's stores of `bs` from index `i` up. -/
def storeFrom (m : Memory) : Nat → List U8 → Memory
  | _, [] => m
  | i, b :: bs => storeFrom (Memory.write m (BitVec.ofNat Config.lenw i).toNat b) (i + 1) bs

theorem read_storeFrom_outside (m : Memory) {i a : Nat} {bs : List U8} (hfit : i + bs.length ≤ 2 ^ Config.lenw)
    (ha : a < i ∨ i + bs.length ≤ a) : Memory.read (storeFrom m i bs) a = Memory.read m a := by
  induction bs generalizing m i with
  | nil => rfl
  | cons b bs ih =>
    rw [List.length_cons] at hfit ha
    rw [storeFrom, ih _ (by omega) (by omega), BitVec.toNat_ofNat, Nat.mod_eq_of_lt (by omega)]
    exact Memory.read_write_other _ _ (by omega)

theorem read_storeFrom_inside (m : Memory) {i j : Nat} {bs : List U8} (hfit : i + bs.length ≤ 2 ^ Config.lenw)
    (hj : j < bs.length) : Memory.read (storeFrom m i bs) (i + j) = bs[j]? := by
  induction bs generalizing m i j with
  | nil => cases hj
  | cons b bs ih =>
    rw [List.length_cons] at hfit hj
    rw [storeFrom]
    cases j with
    | zero =>
      rw [read_storeFrom_outside _ (by omega) (by omega), BitVec.toNat_ofNat, Nat.mod_eq_of_lt (by omega)]
      exact Memory.read_write_self _ _ _
    | succ j => rw [← Nat.add_assoc, Nat.add_right_comm, ih _ (by omega) (by omega), List.getElem?_cons_succ]

/-- While no command runs, the stores of a buffer change `BUF` and nothing else. -/
theorem runSteps_fillTurns {s : State} {i : Nat} {bs : List U8} {g : List Turn} (hp : s.phase ≠ .busy)
    (ha : s.agenda = fillTurns i bs ++ g) :
    runSteps bs.length s = .next { s with agenda := g, buf := storeFrom s.buf i bs } := by
  induction bs generalizing s i with
  | nil => cases ha; rfl
  | cons b bs ih =>
    have htaken : hostAccess (.writeBuf (BitVec.ofNat Config.lenw i) b) (withAgenda (fillTurns (i + 1) bs ++ g) s) =
      .next (storeByte (BitVec.ofNat Config.lenw i).toNat b (withAgenda (fillTurns (i + 1) bs ++ g) s)) :=
      writeBuf_taken (.inl hp)
    rw [List.length_cons, runSteps_succ _ ((step_host ha).trans htaken)]
    exact ih hp rfl

/-! ### What a line does before its command (R69 steps 1 and 2) -/

theorem length_fillTurns (i : Nat) (bs : List U8) : (fillTurns i bs).length = bs.length := by
  induction bs generalizing i with
  | nil => rfl
  | cons b bs ih => simp only [fillTurns, List.length_cons, ih]

theorem usesBuffer_ofHash (op : HashOp) (p : Presence) : usesBuffer (Instr.ofHash op p) = (p == .present) := by
  obtain ⟨a, w⟩ := op
  cases a <;> cases w <;> rfl

/-- The machine when the line `l` has stored its bytes and `ARG` holds `v`, with the turns `g` to come. -/
def afterSetup (l : Line) (v : BitVec Config.lenw) (g : List Turn) (s : State) : State :=
  { s with arg := v, buf := storeFrom s.buf 0 l.bytes, agenda := g }

theorem Ready.not_busy {s : State} (h : Ready s) : s.phase ≠ .busy := by
  rcases h with h | h <;> simp [h]

/-- `WriteARG` after the stores of a buffer is latched where the block accepts a command, and ignored in `ERROR`. -/
theorem runSteps_setupTurns_buffer {s : State} {op : HashOp} {bs : List U8} {g : List Turn} (hp : s.phase ≠ .busy)
    (ha : s.agenda = (Line.hash op (.buffer bs)).setupTurns ++ g) :
    ∃ v, runSteps (bs.length + 1) s = .next (afterSetup (.hash op (.buffer bs)) v g s) ∧
      (s.phase = .error → v = s.arg) ∧ (Ready s → v = BitVec.ofNat Config.lenw bs.length) := by
  rw [Line.setupTurns, List.append_assoc] at ha
  rw [runSteps_add 1 (runSteps_fillTurns hp ha)]
  have hstep := step_host (s := { s with
    agenda := .host (.writeArg (BitVec.ofNat Config.lenw bs.length)) :: g, buf := storeFrom s.buf 0 bs }) rfl
  rcases writeArg_cases hstep.symm with ⟨hr, ho⟩ | ⟨hbusy, _⟩ | ⟨herr, ho⟩
  · exact ⟨_, runSteps_one ho, fun herr => absurd herr (Ready.not_error hr), fun _ => rfl⟩
  · exact absurd hbusy hp
  · exact ⟨s.arg, runSteps_one ho, fun _ => rfl, fun hr => absurd herr (Ready.not_error hr)⟩

/-- The bytes of a line come to stand in `BUF`, and in a state that accepts a command their length in `ARG` where the
command reads a buffer. -/
theorem runSteps_setupTurns {s : State} {l : Line} {g : List Turn} (hp : s.phase ≠ .busy)
    (ha : s.agenda = l.setupTurns ++ g) :
    ∃ v, runSteps l.setupTurns.length s = .next (afterSetup l v g s) ∧ (s.phase = .error → v = s.arg) ∧
      (Ready s → usesBuffer l.instr = true → v = BitVec.ofNat Config.lenw l.bytes.length) := by
  match l, ha with
  | .tlkup _, ha => cases ha; exact ⟨s.arg, rfl, fun _ => rfl, fun _ => nofun⟩
  | .hash op .null, ha =>
    cases ha
    exact ⟨s.arg, rfl, fun _ => rfl, fun _ huse => by rw [Line.instr, usesBuffer_ofHash] at huse; cases huse⟩
  | .hash op (.buffer bs), ha =>
    obtain ⟨v, hrun, herr, hready⟩ := runSteps_setupTurns_buffer hp ha
    have hlen : (Line.hash op (.buffer bs)).setupTurns.length = bs.length + 1 := by
      simp only [Line.setupTurns, List.length_append, length_fillTurns, List.length_singleton]
    exact ⟨v, by rw [hlen, hrun], herr, fun hr _ => hready hr⟩

theorem Line.bytes_fit {l : Line} (h : l.fits = true) : l.bytes.length < 2 ^ Config.lenw := by
  match l, h with
  | .tlkup _, _ => exact Nat.two_pow_pos _
  | .hash _ .null, _ => exact Nat.two_pow_pos _
  | .hash _ (.buffer _), h => exact of_decide_eq_true h

section Setup

variable {l : Line} {v : BitVec Config.lenw} {g : List Turn} {s : State} {a : Nat}

theorem step_afterSetup_writeCmd (w : U16) :
    step (afterSetup l v (.host (.writeCmd w) :: g) s) = writeCmd w (afterSetup l v g s) := by
  have hag : (afterSetup l v (.host (.writeCmd w) :: g) s).agenda = .host (.writeCmd w) :: g := rfl
  exact step_host hag

theorem read_afterSetup_inside (hfit : l.fits = true) (ha : a < l.bytes.length) :
    Memory.read (afterSetup l v g s).buf a = l.bytes[a]? := by
  have hbound := Line.bytes_fit hfit
  have hread := read_storeFrom_inside s.buf (i := 0) (by omega) ha
  rwa [Nat.zero_add] at hread

theorem read_afterSetup_outside (hfit : l.fits = true) (ha : l.bytes.length ≤ a) :
    Memory.read (afterSetup l v g s).buf a = Memory.read s.buf a := by
  have hbound := Line.bytes_fit hfit
  exact read_storeFrom_outside s.buf (by omega) (.inr (by omega))

theorem holdsBuffer_afterSetup (hfit : l.fits = true) (hv : v = BitVec.ofNat Config.lenw l.bytes.length) :
    HoldsBuffer (afterSetup l v g s) l.bytes := by
  refine ⟨?_, fun _ hi => read_afterSetup_inside hfit hi⟩
  rw [afterSetup, hv, BitVec.toNat_ofNat, Nat.mod_eq_of_lt (Line.bytes_fit hfit)]

end Setup

/-! ### From the command to the read of `RESULT` (R69 steps 3 to 5) -/

/-- The machine comes from `s` to `t`. -/
def Reaches (s t : State) : Prop := ∃ n, runSteps n s = .next t

theorem Reaches.of_step {s t : State} (h : step s = .next t) : Reaches s t := ⟨1, runSteps_one h⟩

theorem Reaches.trans {s t v : State} : Reaches s t → Reaches t v → Reaches s v
  | ⟨n, hn⟩, ⟨m, hm⟩ => ⟨n + m, (runSteps_add m hn).trans hm⟩

/-- What the block's steps and the host's polls leave unchanged. -/
structure PollFrame (s t : State) : Prop where
  cmd : t.cmd = s.cmd
  ecode : t.ecode = s.ecode
  buf : ∀ a, Memory.read t.buf a = Memory.read s.buf a

theorem PollFrame.trans {s t v : State} (h₁ : PollFrame s t) (h₂ : PollFrame t v) : PollFrame s v :=
  ⟨h₂.cmd.trans h₁.cmd, h₂.ecode.trans h₁.ecode, fun a => (h₂.buf a).trans (h₁.buf a)⟩

section Polls

variable {bs : List U8} {s : State} {n : Nat} {r : U64}

/-- The block's steps between two polls pay off what is owed, whatever is to come after them. -/
theorem Owes.runBlocks (h : Owes bs s n r) {k : Nat} {g : List Turn} (ha : s.agenda = List.replicate k .block ++ g) :
    ∃ t, Machine.runSteps k s = .next t ∧ t.agenda = g ∧ PollFrame s t ∧ Owes bs t (n - k) r := by
  induction k generalizing s n with
  | zero => exact ⟨s, rfl, ha, ⟨rfl, rfl, fun _ => rfl⟩, h⟩
  | succ k ih =>
    have hrest : Owes bs (withAgenda (List.replicate k .block ++ g) s) n r :=
      h.with_host_side s.buf _ s.readData s.drawn fun _ _ hm => hm
    obtain ⟨t, ht, howes⟩ := hrest.blockTurn
    have frame := TurnFrame.block ht
    obtain ⟨v, hv, hag, hframe, howes'⟩ := ih howes frame.agenda
    have hfirst : PollFrame s t := ⟨frame.cmd, frame.ecode, fun a => frame.buf a nofun⟩
    refine ⟨v, (runSteps_succ k ((step_turn ha).trans ht)).trans hv, hag, hfirst.trans hframe, ?_⟩
    rwa [Nat.add_comm, ← Nat.sub_sub]

/-- The host polls until `DONE` and reads the result owed: a poll in `BUSY` uses up a gap, or, where the gaps have run
out, lets the block pay off a step. -/
theorem Owes.polls (h : Owes bs s n r) {gaps : List Nat} {rest : List Turn} (ha : s.agenda = .await gaps :: rest) :
    ∃ t, Reaches s t ∧ PollFrame s t ∧ t.agenda = rest ∧ t.phase = .done ∧ t.result = r ∧
      t.readData = some (.result r) := by
  induction hk : n + gaps.length using Nat.strong_induction_on generalizing s n gaps with
  | _ k ih =>
    have hpoll := Reaches.of_step (step_await ha)
    have howes : Owes bs (poll gaps (withAgenda rest s)) n r := h.with_host_side s.buf _ _ s.drawn fun _ _ hm => hm
    have hframe : PollFrame s (poll gaps (withAgenda rest s)) := ⟨rfl, rfl, fun _ => rfl⟩
    have hag : (poll gaps (withAgenda rest s)).agenda = afterPoll gaps s.phase ++ rest := rfl
    by_cases hn : n = 0
    · obtain ⟨hdone, hres⟩ := howes.done_of_zero hn
      have hp : s.phase = .done := hdone
      rw [hp] at hag
      obtain ⟨_, _, _, hread, _⟩ := registerReadsAnswer (poll gaps (withAgenda rest s)) rest
      exact ⟨_, hpoll.trans (.of_step (hread hag hdone)), ⟨rfl, rfl, fun _ => rfl⟩, rfl, hdone, hres, by rw [hres]⟩
    · rw [h.busy_of_pos (Nat.pos_of_ne_zero hn), afterPoll, List.append_assoc] at hag
      obtain ⟨t, ht, hag', hframe', howes'⟩ := howes.runBlocks hag
      have hfewer : n - gaps.headD 1 + gaps.tail.length < k := by
        cases gaps with
        | nil => simp only [List.headD_nil, List.tail_nil, List.length_nil] at hk ⊢; omega
        | cons gap gaps => simp only [List.headD_cons, List.tail_cons, List.length_cons] at hk ⊢; omega
      obtain ⟨v, hv, hframe'', hend⟩ := ih _ hfewer howes' hag' rfl
      exact ⟨v, (hpoll.trans ⟨_, ht⟩).trans hv, (hframe.trans hframe').trans hframe'', hend⟩

/-- The command of a line, once issued, owes the line's result. -/
theorem Line.owes (l : Line) (w : U16) (hbuf : usesBuffer l.instr = true → HoldsBuffer s l.bytes) :
    ∃ n, Owes l.bytes (cmdEffect l.instr (latchCmd w s)) n l.result := by
  match l, hbuf with
  | .tlkup _, _ => exact ⟨0, .finished rfl⟩
  | .hash ⟨a, w⟩ .null, _ => cases a <;> cases w <;> exact ⟨0, .finished rfl⟩
  | .hash op (.buffer bs), hbuf =>
    have hb : HoldsBuffer (latchCmd w s) bs := hbuf (usesBuffer_ofHash op .present)
    have howes := Owes.running (launch_latches op _).1 (loaded_launch op hb)
    rw [resultAhead_launch, ← cmdEffect_ofHash_present] at howes
    exact ⟨_, howes⟩

end Polls

/-- Settles O20: the setup, the command, and the polls, one after the other. -/
theorem lineReadsResult : Obligations.LineReadsResult := by
  intro s l gaps rest hr hfit ha
  rw [Line.turns, List.append_assoc] at ha
  obtain ⟨v, hsetup, _, hv⟩ := runSteps_setupTurns hr.not_busy ha
  have hready : Ready (afterSetup l v (.await gaps :: rest) s) := hr
  have hissue : step (afterSetup l v (.host (.writeCmd (encode l.instr)) :: .await gaps :: rest) s) =
      .next (cmdEffect l.instr (latchCmd (encode l.instr) (afterSetup l v (.await gaps :: rest) s))) :=
    (step_afterSetup_writeCmd _).trans
      ((writeCmd_of_decode (decodeOfEncodedCommand l.instr) _).trans (exec_of_ready _ hready))
  obtain ⟨_, howes⟩ := l.owes (encode l.instr) (s := afterSetup l v (.await gaps :: rest) s)
    fun huse => holdsBuffer_afterSetup hfit (hv hr huse)
  obtain ⟨_, hcmd, hag, hbuf⟩ :=
    cmdEffect_frame l.instr (latchCmd (encode l.instr) (afterSetup l v (.await gaps :: rest) s))
  obtain ⟨hecode, _⟩ :=
    cmdEffect_no_exception l.instr (latchCmd (encode l.instr) (afterSetup l v (.await gaps :: rest) s))
  obtain ⟨t, hpolls, frame, hrest, hdone, hres, hread⟩ := howes.polls hag
  obtain ⟨k, hk⟩ := (Reaches.trans ⟨_, hsetup⟩ (.of_step hissue)).trans hpolls
  have hbytes (a : Nat) : Memory.read t.buf a = Memory.read (afterSetup l v (.await gaps :: rest) s).buf a := by
    rw [frame.buf, hbuf, latchCmd_buf]
  exact ⟨k, t, hk, hrest, hread, hres, hdone, frame.cmd.trans hcmd, frame.ecode.trans hecode,
    fun a ha => (hbytes a).trans (read_afterSetup_inside hfit ha),
    fun a ha => (hbytes a).trans (read_afterSetup_outside hfit ha)⟩

/-! ### A line met in `ERROR` (R69 step 5, R157) -/

theorem writeCmd_of_error {s : State} (w : U16) (h : s.phase = .error) : writeCmd w s = .next s := by
  rcases writeCmd_cases (rfl : writeCmd w s = _) with ⟨hr, _⟩ | ⟨hr, _⟩ | ⟨hbusy, _⟩ | ⟨_, ho⟩
  · exact absurd h hr.not_error
  · exact absurd h hr.not_error
  · rw [h] at hbusy; cases hbusy
  · exact ho

/-- Settles O21: the writes to `ARG` and `CMD` are ignored, and the poll finds `ERROR`. -/
theorem lineInErrorReadsNoResult : Obligations.LineInErrorReadsNoResult := by
  intro s l gaps rest herr ha
  have hlen : (l.turns gaps).length = l.setupTurns.length + 2 := by simp [Line.turns]
  rw [Line.turns, List.append_assoc] at ha
  obtain ⟨v, hsetup, hv, _⟩ := runSteps_setupTurns (by rw [herr]; nofun) ha
  have herr' : (afterSetup l v (.await gaps :: rest) s).phase = .error := herr
  have hcmd : step (afterSetup l v (.host (.writeCmd (encode l.instr)) :: .await gaps :: rest) s) =
      .next (afterSetup l v (.await gaps :: rest) s) := (step_afterSetup_writeCmd _).trans (writeCmd_of_error _ herr')
  have hpoll : step (afterSetup l v (.await gaps :: rest) s) = .next (poll gaps (afterSetup l v rest s)) :=
    step_await rfl
  have hnothing : afterPoll gaps s.phase ++ rest = rest := by rw [herr]; rfl
  refine ⟨poll gaps (afterSetup l v rest s), ?_, hnothing, rfl, herr, rfl, rfl, hv herr, rfl⟩
  rw [hlen, runSteps_add 2 hsetup]
  exact (runSteps_succ 1 hcmd).trans (runSteps_one hpoll)

end Sys2Proof.Machine
end

section
/-! PROOFS. A command that reads no buffer ends with a value of its own, whatever `ARG` and `BUF` hold (R65). -/

namespace Sys2Proof.Machine

/-- Settles O59, by the three branches of a write to `CMD`: the effect of such a command is the same constant result. -/
theorem absentIgnoresArgAndBuffer : Obligations.AbsentIgnoresArgAndBuffer := by
  intro i s t v m hi h
  obtain ⟨r, hr⟩ := cmdEffect_of_not_usesBuffer hi
  rw [exec_eq_issue, hr] at h ⊢
  rcases issue_cases h with ⟨hready, ho⟩ | ⟨hbusy, ho⟩ | ⟨herr, ho⟩ <;> cases ho
  · exact issue_of_ready (s := { s with arg := v, buf := m }) _ _ hready
  · exact issue_of_busy (s := { s with arg := v, buf := m }) _ _ hbusy
  · exact issue_of_error (s := { s with arg := v, buf := m }) _ _ herr

end Sys2Proof.Machine
end

section
/-! PROOFS. The table as `TLKUP` shows it: the result of a lookup is the table's byte (R82), so that the lookups show a
permutation of the bytes (R81, R84). -/

namespace Sys2Proof.Machine

/-! ### The lookup command (R63, R82) -/

/-- The word of `TLKUP i`: `IDX8 = i` above the low byte `0x03` (R63). -/
theorem encode_tlkup (i : U8) : encode (.tlkup i) = i.setWidth 16 <<< 8 ||| 0x0003 := by
  ext k hk
  simp only [encode, Instr.fields, Fields.toWord, ← BitVec.getLsbD_eq_getElem, BitVec.getLsbD_append,
    BitVec.getLsbD_or, BitVec.getLsbD_shiftLeft, BitVec.getLsbD_setWidth]
  interval_cases k <;> simp

theorem exec_tlkup_of_ready {s : State} (i : U8) (h : Ready s) :
    exec (.tlkup i) s = .next (complete ((tableRead i).setWidth 64) (latchCmd (encode (.tlkup i)) s)) :=
  exec_of_ready (.tlkup i) h

/-- Settles O8: the command ends at once with the table's byte, and the word it latches is written out. -/
theorem tlkupCompletes : Obligations.TlkupCompletes := by
  intro s i h
  rw [exec_tlkup_of_ready i h, encode_tlkup]
  rfl

/-! ### The table as the host sees it (R81, R84) -/

theorem tableRead_bijective : Function.Bijective tableRead := Config.tRom.bijective

/-- Truncation to 8 bits reads the byte back. -/
theorem zext64_injective : Function.Injective (fun b : U8 => b.setWidth 64) :=
  Function.LeftInverse.injective (g := BitVec.setWidth 8) fun b => by simp

theorem result_of_exec_tlkup {s t : State} {i : U8} (h : Ready s) (ht : exec (.tlkup i) s = .next t) :
    t.result = (tableRead i).setWidth 64 := by
  cases (exec_tlkup_of_ready i h).symm.trans ht
  rfl

/-- Settles O54: two results are equal only if the table's bytes are, and every byte stands in the table. -/
theorem tableLookupsAreBijective : Obligations.TableLookupsAreBijective := by
  intro s h
  refine ⟨fun i j t u ht hu htu => ?_, fun v => ?_⟩
  · rw [result_of_exec_tlkup h ht, result_of_exec_tlkup h hu] at htu
    exact tableRead_bijective.injective (zext64_injective htu)
  · obtain ⟨i, rfl⟩ := tableRead_bijective.surjective v
    exact ⟨i, _, exec_tlkup_of_ready i h, rfl⟩

end Sys2Proof.Machine
end

section
/-! PROOFS. The custom checksum engine: its loop byte by byte (R91, R95), its `ByteStep` (R94), the quantity `p` of the
third sub-hash (R93), and the absent operand, which gives 0 for this engine and the FNV engine (R99, R144). -/

namespace Sys2Proof.Machine

/-! ### The loop (R91, R95) -/

/-- The loop over two buffers in a row: the second goes on at the position the first has reached. -/
theorem ckLoop_append (mixFn : U32 → U32 → U32 → U32) (as bs : List U8) (i : Nat) (c : U32 × U32) :
    ckLoop mixFn i c (as ++ bs) = ckLoop mixFn (i + as.length) (ckLoop mixFn i c as) bs := by
  induction as generalizing i c with
  | nil => rfl
  | cons a as ih =>
    have hpos : i + (a :: as).length = i + 1 + as.length := by rw [List.length_cons]; omega
    rw [List.cons_append, ckLoop, ih, hpos, ckLoop]

/-- Settles O53: after the first bytes the loop stands at position `bs.length`, where the last byte is one `ck_byte`. -/
theorem customLoopAppendsByte : Obligations.CustomLoopAppendsByte := by
  intro mixFn c bs b
  rw [ckLoop_append, Nat.zero_add]
  rfl

/-! ### The absent operand (R99, R144) -/

theorem cmdEffect_ofHash_absent (op : HashOp) :
    cmdEffect (Instr.ofHash op .absent) = complete (presented (absentConst op)) := by
  obtain ⟨a, w⟩ := op
  cases a <;> cases w <;> rfl

theorem presented_zero (n : Nat) : presented (0 : BitVec n) = 0 := by
  have hmsb : (0 : BitVec n).msb = false := BitVec.msb_zero
  rw [presented, BitVec.signExtend_eq_setWidth_of_msb_false hmsb]
  exact BitVec.setWidth_zero 64 n

theorem presented_absentConst_of_not_jk {op : HashOp} (h : op.alg ≠ .jk) : presented (absentConst op) = 0 := by
  obtain ⟨a, w⟩ := op
  cases a with
  | jk => exact absurd rfl h
  | ck | fn => exact presented_zero w.bits

/-- In `IDLE` and `DONE` an absent operand ends a custom or FNV command at once with 0 (R99, R144). -/
theorem exec_absent_zero_of_ready {s : State} {op : HashOp} (hop : op.alg ≠ .jk) (h : Ready s) :
    exec (Instr.ofHash op .absent) s = .next (complete 0 (latchCmd (encode (Instr.ofHash op .absent)) s)) := by
  rw [exec_of_ready _ h, cmdEffect_ofHash_absent, presented_absentConst_of_not_jk hop]

/-- Settles O9: neither engine is the Jenkins engine, so the constant is 0 at each width. -/
theorem absentCustomAndFnvComplete : Obligations.AbsentCustomAndFnvComplete := fun _ h =>
  ⟨exec_absent_zero_of_ready (op := ⟨.ck, .w16⟩) nofun h, exec_absent_zero_of_ready (op := ⟨.ck, .w32⟩) nofun h,
    exec_absent_zero_of_ready (op := ⟨.ck, .w64⟩) nofun h, exec_absent_zero_of_ready (op := ⟨.fn, .w16⟩) nofun h,
    exec_absent_zero_of_ready (op := ⟨.fn, .w32⟩) nofun h, exec_absent_zero_of_ready (op := ⟨.fn, .w64⟩) nofun h⟩

/-! ### `ByteStep` (R94) -/

theorem absorb_of_ck {s : State} (h : s.opl.alg = .ck) (b : U8) : absorb b s = absorbCk b s := by
  rw [absorb, h]

/-- Settles O38: the turn is a `ByteStep`, and `absorbCk` then `advance` write `C1`, `C2` and `IDX`. -/
theorem customByteStep : Obligations.CustomByteStep := by
  intro s b hp ho hi hb
  rw [blockTurn_byte hp hi hb, absorb_of_ck ho]
  rfl

/-! ### The quantity `p` (R93) -/

theorem toNat_mixP (h c n : U32) : (mixP h c n).toNat = (h * (c + n) * (c - n)).toNat % 104851 := BitVec.toNat_umod

/-- Settles O52: the remainder is that of the wrapped product, and a remainder is below its modulus. -/
theorem mixPolynomialBelowModulus : Obligations.MixPolynomialBelowModulus := by
  intro h c n
  rw [toNat_mixP]
  exact ⟨rfl, Nat.mod_lt _ (by decide)⟩

end Sys2Proof.Machine
end

section
/-! PROOFS. The Jenkins engine: the absent operand, which gives the constant of its width (R119, R144), and its
`ByteStep` (R111). -/

namespace Sys2Proof.Machine

/-! ### The absent operand (R119, R144) -/

/-- In `IDLE` and `DONE` an absent operand ends a hash command at once with the constant of its operation (R144). -/
theorem exec_absent_of_ready {s : State} (op : HashOp) (h : Ready s) :
    exec (Instr.ofHash op .absent) s =
      .next (complete (presented (absentConst op)) (latchCmd (encode (Instr.ofHash op .absent)) s)) := by
  rw [exec_of_ready _ h, cmdEffect_ofHash_absent]

/-- The constant of `JK16` is below 2^15, so its sign extension is the same number. -/
theorem presented_absentConst_jk16 : presented (absentConst ⟨.jk, .w16⟩) = 15401 := by
  decide

/-- Settles O10, width by width: 15401 is positive at 16 bits, and the 64-bit constant is presented as it is. -/
theorem absentJenkinsCompletes : Obligations.AbsentJenkinsCompletes := by
  intro s h
  have h16 := exec_absent_of_ready ⟨.jk, .w16⟩ h
  have h64 := exec_absent_of_ready ⟨.jk, .w64⟩ h
  rw [presented_absentConst_jk16] at h16
  rw [presented_of_w64] at h64
  exact ⟨h16, exec_absent_of_ready ⟨.jk, .w32⟩ h, h64⟩

/-! ### `ByteStep` (R111) -/

theorem absorb_of_jk {s : State} (h : s.opl.alg = .jk) (b : U8) : absorb b s = absorbJk b s := by
  rw [absorb, h]

/-- Settles O39: the turn is a `ByteStep`, and `absorbJk` then `advance` write `H` and `IDX`. -/
theorem jenkinsByteStep : Obligations.JenkinsByteStep := by
  intro s b hp ho hi hb
  rw [blockTurn_byte hp hi hb, absorb_of_jk ho]
  rfl

end Sys2Proof.Machine
end

section
/-! PROOFS. The FNV engine's `ByteStep` (R131), and what the results of one algorithm at the three widths have to do
with one another on one present buffer (R138, R149). -/

namespace Sys2Proof.Machine

/-! ### `ByteStep` (R131) -/

theorem absorb_of_fn {s : State} (h : s.opl.alg = .fn) (b : U8) : absorb b s = absorbFn b s := by
  rw [absorb, h]

/-- `fnv_byte` with its factors in the order of R131; the model's definition has the prime first. -/
theorem fnvByte_eq (hval : U64) (b : U8) : fnvByte hval b = ((hval + fnvAddend b) ^^^ fnvMask b) * fnvPrime :=
  BitVec.mul_comm _ _

/-- Settles O40: the turn is a `ByteStep`, and `absorbFn` then `advance` write `HV` and `IDX`. -/
theorem fnvByteStep : Obligations.FnvByteStep := by
  intro s b hp ho hi hb
  rw [blockTurn_byte hp hi hb, absorb_of_fn ho, absorbFn, fnvByte_eq]
  rfl

/-! ### The folds, one after the other (R141 to R143) -/

/-- A slice of a slice is a slice of the whole. -/
theorem extractLsb'_extractLsb' {w i j m n : Nat} (x : BitVec w) (h : j + n ≤ m) :
    (x.extractLsb' i m).extractLsb' j n = x.extractLsb' (i + j) n := by
  ext k hk
  have hkm : j + k < m := by omega
  simp [hkm, Nat.add_assoc]

/-- A 16-bit slice of the 32-bit fold combines the slices at the same place of the two halves. -/
theorem extractLsb'_fold64to32 (x : U64) {k : Nat} (h : k + 16 ≤ 32) :
    (fold64to32 x).extractLsb' k 16 = x.extractLsb' (32 + k) 16 ^^^ x.extractLsb' k 16 := by
  rw [fold64to32, BitVec.extractLsb'_xor, extractLsb'_extractLsb' x h, extractLsb'_extractLsb' x h, Nat.zero_add]

/-- Folding to 16 bits at once is folding to 32 and then to 16: both XOR the same four slices. -/
theorem fold64to16_eq_fold32to16_fold64to32 (x : U64) : fold64to16 x = fold32to16 (fold64to32 x) := by
  rw [fold32to16, extractLsb'_fold64to32 x (by decide), extractLsb'_fold64to32 x (by decide), fold64to16]
  ac_rfl

/-! ### One buffer, three widths (R138, R149) -/

/-- Both for the empty buffer and otherwise, the first pass of `JK64` is the high half of its value (R116). -/
theorem extractLsb'_jk64_high (reseed : U32) (bs : List U8) : (jk64 reseed bs).extractLsb' 32 32 = jk32 bs 0 :=
  BitVec.extractLsb'_append_eq_left

theorem hashResult_ck (w : Width) (bs : List U8) : hashResult ⟨.ck, w⟩ bs = fold w (hashResult ⟨.ck, .w64⟩ bs) := rfl

theorem hashResult_fn (w : Width) (bs : List U8) : hashResult ⟨.fn, w⟩ bs = fold w (hashResult ⟨.fn, .w64⟩ bs) := rfl

/-- Settles O51. Custom and FNV results at every width are folds of the one 64-bit value (R145), and so is `JK16` of
`JK32`, by definition; that `FN16` is the fold of `FN32` needs the two folds to compose. -/
theorem widthsAreConsistent : Obligations.WidthsAreConsistent := by
  intro bs
  have hfn16 : hashResult ⟨.fn, .w16⟩ bs = fold32to16 (hashResult ⟨.fn, .w32⟩ bs) := by
    rw [hashResult_fn .w16, hashResult_fn .w32]
    exact fold64to16_eq_fold32to16_fold64to32 _
  exact ⟨hashResult_fn .w32 bs, hashResult_fn .w16 bs, hfn16, hashResult_ck .w32 bs, hashResult_ck .w16 bs, rfl,
    extractLsb'_jk64_high Config.jkReseed bs⟩

end Sys2Proof.Machine
end

section
/-! PROOFS. The result folder: the folds as the source computes them (R141 to R143), and that an absent operand and a
present but empty buffer give different results (R147). -/

namespace Sys2Proof.Machine

/-! ### The folds by shifting and truncating (R141 to R143) -/

/-- Truncation passes through the XOR, and each shifted word gives its slice. -/
theorem fold64to32_eq_setWidth (x : U64) : fold64to32 x = (x >>> 32 ^^^ x).setWidth 32 := by
  rw [BitVec.setWidth_xor, BitVec.setWidth_ushiftRight_eq_extractLsb,
    BitVec.setWidth_eq_extractLsb' (by decide), fold64to32]

theorem fold64to16_eq_setWidth (x : U64) :
    fold64to16 x = (x >>> 48 ^^^ x >>> 32 ^^^ x >>> 16 ^^^ x).setWidth 16 := by
  simp only [BitVec.setWidth_xor, BitVec.setWidth_ushiftRight_eq_extractLsb]
  rw [BitVec.setWidth_eq_extractLsb' (by decide), fold64to16]

theorem fold32to16_eq_setWidth (x : U32) : fold32to16 x = (x >>> 16 ^^^ x).setWidth 16 := by
  rw [BitVec.setWidth_xor, BitVec.setWidth_ushiftRight_eq_extractLsb,
    BitVec.setWidth_eq_extractLsb' (by decide), fold32to16]

/-- Settles O48: the slices are the definitions, and for every value the shift and truncate form and the composition
equal them. -/
theorem foldsAreXorOfSlices : Obligations.FoldsAreXorOfSlices :=
  ⟨fun h => ⟨rfl, fold64to32_eq_setWidth h, rfl, fold64to16_eq_setWidth h, fold64to16_eq_fold32to16_fold64to32 h⟩,
    fun h => ⟨rfl, fold32to16_eq_setWidth h⟩⟩

/-! ### Absent, and present but empty (R147) -/

theorem absentConst_ck (w : Width) : absentConst ⟨.ck, w⟩ = 0 := rfl

theorem absentConst_fn (w : Width) : absentConst ⟨.fn, w⟩ = 0 := rfl

/-- By the constraints on the open constants alone (R144). -/
theorem absentConst_jk_ne_zero (w : Width) : absentConst ⟨.jk, w⟩ ≠ 0 := by
  obtain ⟨-, h32, h64, -⟩ := jenkinsNullConstants
  cases w with
  | w16 => exact (by decide : jkNull16 ≠ 0)
  | w32 => exact h32
  | w64 => exact h64

/-- No byte is mixed in, so the empty buffer hashes to the fold of the two seeds, for every `MIX` (R95). -/
theorem hashResult_ck_nil (w : Width) : hashResult ⟨.ck, w⟩ [] = fold w 0xFAB1C0E1CA140BE5 := by
  have hwide : ckWide mix [] = 0xFAB1C0E1CA140BE5 := by rw [ckWide, ckLoop]; decide
  rw [hashResult, hwide]

/-- No byte is mixed in, so the empty buffer hashes to the fold of the basis (R132). -/
theorem hashResult_fn_nil (w : Width) : hashResult ⟨.fn, w⟩ [] = fold w 0xCBF29CE484222325 := rfl

/-- The final step keeps 0 when the length is 0, for every reseed constant (R117). -/
theorem hashResult_jk_nil (w : Width) : hashResult ⟨.jk, w⟩ [] = 0 := by
  cases w with
  | w16 => exact (by decide : fold32to16 (jk32 [] 0) = 0)
  | w32 => exact (by decide : jk32 [] 0 = 0)
  | w64 => exact jk64_nil Config.jkReseed

/-- Custom and FNV: 0 against a fold of the seeds that is not 0 at any width; Jenkins: a constant that is not 0
against 0 (R148). -/
theorem absentConst_ne_hashResult_nil (op : HashOp) : absentConst op ≠ hashResult op [] := by
  obtain ⟨a, w⟩ := op
  cases a with
  | ck =>
    have hfold : 0 ≠ fold w 0xFAB1C0E1CA140BE5 := by cases w <;> decide
    rwa [absentConst_ck, hashResult_ck_nil]
  | jk => rw [hashResult_jk_nil]; exact absentConst_jk_ne_zero w
  | fn =>
    have hfold : 0 ≠ fold w 0xCBF29CE484222325 := by cases w <;> decide
    rwa [absentConst_fn, hashResult_fn_nil]

/-- Settles O50. The absent column holds by definition; the narrow values of the empty column are the folds of the
64-bit ones. -/
theorem absentDiffersFromEmpty : Obligations.AbsentDiffersFromEmpty := by
  have hck16 : fold .w16 0xFAB1C0E1CA140BE5 = 0xFBA1 := by decide
  have hck32 : fold .w32 0xFAB1C0E1CA140BE5 = 0x30A5CB04 := by decide
  have hfn16 : fold .w16 0xCBF29CE484222325 = 0xF011 := by decide
  have hfn32 : fold .w32 0xCBF29CE484222325 = 0x4FD0BFC1 := by decide
  exact ⟨absentConst_ne_hashResult_nil,
    rfl, (hashResult_ck_nil .w16).trans hck16, rfl, (hashResult_ck_nil .w32).trans hck32, rfl, hashResult_ck_nil .w64,
    rfl, hashResult_jk_nil .w16, rfl, hashResult_jk_nil .w32, rfl, hashResult_jk_nil .w64,
    rfl, (hashResult_fn_nil .w16).trans hfn16, rfl, (hashResult_fn_nil .w32).trans hfn32, rfl, hashResult_fn_nil .w64⟩

end Sys2Proof.Machine
end

section
/-! PROOFS. The exceptions (R150 to R157): the two causes that raise one, what each writes, and the `ERROR` state, which
nothing but reset leaves. -/

namespace Sys2Proof.Machine

/-! ### The two causes (R151, R152) -/

theorem writeCmd_of_reserved {s : State} {w : U16} {e : DecodeError} (hd : decodeWord w = .error e) (h : Ready s) :
    writeCmd w s = .next (raise .reservedCommand (latchCmd w s)) := by
  simp only [writeCmd, hd, issueReserved, issue_of_ready _ _ h]

/-- In `BUSY` the word is not decoded (R155). -/
theorem writeCmd_of_busy {s : State} (w : U16) (h : s.phase = .busy) :
    writeCmd w s = .next (raise .busyViolation s) := by
  unfold writeCmd
  split
  · rw [exec_eq_issue, issue_of_busy _ _ h]
  · exact issue_of_busy _ _ h

theorem writeArg_of_busy {s : State} (v : BitVec Config.lenw) (h : s.phase = .busy) :
    writeArg v s = .next (raise .busyViolation s) := by simp only [writeArg, h]

/-- The two exceptions, as accesses of the host: the access `a` at `s` raises one (R151, R152), and `t` is the state
after trap entry (R154). -/
inductive Raises : Access → State → State → Prop where
  | reserved {s : State} {w : U16} {e : DecodeError} (ready : Ready s) (undecoded : decodeWord w = .error e) :
      Raises (.writeCmd w) s (raise .reservedCommand (latchCmd w s))
  | busyCmd {s : State} (w : U16) (busy : s.phase = .busy) : Raises (.writeCmd w) s (raise .busyViolation s)
  | busyArg {s : State} (v : BitVec Config.lenw) (busy : s.phase = .busy) :
      Raises (.writeArg v) s (raise .busyViolation s)

/-- Each cause raises its exception in the machine. -/
theorem Raises.hostAccess {a : Access} {s t : State} (h : Raises a s t) : hostAccess a s = .next t := by
  cases h with
  | reserved hr hd => exact writeCmd_of_reserved hd hr
  | busyCmd w hp => exact writeCmd_of_busy w hp
  | busyArg v hp => exact writeArg_of_busy v hp

theorem Raises.step {a : Access} {rest : List Turn} {s t : State} (hag : s.agenda = .host a :: rest)
    (h : Raises a (withAgenda rest s) t) : step s = .next t := (step_host hag).trans h.hostAccess

/-- Settles O22. -/
theorem reservedWordRaises : Obligations.ReservedWordRaises := fun _ _ _ _ hag hr hd =>
  Raises.step hag (.reserved hr hd)

/-- Settles O23. -/
theorem busyWriteRaises : Obligations.BusyWriteRaises := fun s _ hp =>
  ⟨fun w hag => Raises.step hag (.busyCmd w hp), fun v hag => Raises.step hag (.busyArg v hp),
    fun i => (exec_eq_issue i s).trans (issue_of_busy _ _ hp)⟩

/-! ### In `ERROR` (R157) -/

theorem writeArg_of_error {s : State} (v : BitVec Config.lenw) (h : s.phase = .error) : writeArg v s = .next s := by
  simp only [writeArg, h]

/-- Settles O24. -/
theorem errorIgnoresWrites : Obligations.ErrorIgnoresWrites := fun s rest hp =>
  ⟨fun w ha => (step_host ha).trans (writeCmd_of_error (s := withAgenda rest s) w hp),
    fun v ha => (step_host ha).trans (writeArg_of_error (s := withAgenda rest s) v hp),
    fun i => (exec_eq_issue i s).trans (issue_of_error _ _ hp)⟩

/-- In `ERROR` an access of the host reaches no register of the block: it stores in `BUF`, reads, or is ignored. -/
theorem hostAccess_of_error {a : Access} {s t : State} (hp : s.phase = .error) (h : hostAccess a s = .next t) :
    ∃ m d k, t = { s with buf := m, readData := d, drawn := k } := by
  cases a with
  | writeArg v => cases (writeArg_of_error v hp).symm.trans h; exact ⟨_, _, _, rfl⟩
  | writeCmd w => cases (writeCmd_of_error w hp).symm.trans h; exact ⟨_, _, _, rfl⟩
  | writeStatus v => cases h; exact ⟨_, _, _, rfl⟩
  | writeResult v => cases h; exact ⟨_, _, _, rfl⟩
  | read reg =>
    cases h
    obtain ⟨d, k, hread⟩ := readReg_eq reg s
    exact ⟨_, d, k, hread⟩
  | writeBuf i b =>
    have hstore : writeBuf i b s = .next (storeByte i.toNat b s) := writeBuf_taken (.inl (by simp [hp]))
    cases hstore.symm.trans h; exact ⟨_, _, _, rfl⟩

/-- In `ERROR` no step but a reset reaches a register of the block. -/
theorem step_of_error {s t : State} (hp : s.phase = .error) (hreset : ∀ rest, s.agenda ≠ .reset :: rest)
    (h : step s = .next t) : ∃ g m d k, t = { s with agenda := g, buf := m, readData := d, drawn := k } := by
  have hstill (v : State) (hv : v.phase = .error) : blockTurn v = .next v := blockTurn_of_not_busy (by simp [hv])
  rcases step_cases h with ⟨_, hb⟩ | ⟨rest, ⟨_, hb⟩ | ⟨a, _, ha⟩ | ⟨gaps, _, ho⟩ | ⟨hag, _⟩⟩
  · cases (hstill s hp).symm.trans hb; exact ⟨_, _, _, _, rfl⟩
  · cases (hstill (withAgenda rest s) hp).symm.trans hb; exact ⟨_, _, _, _, rfl⟩
  · obtain ⟨m, d, k, rfl⟩ := hostAccess_of_error (s := withAgenda rest s) hp ha
    exact ⟨rest, m, d, k, rfl⟩
  · cases ho; exact ⟨_, _, _, _, rfl⟩
  · exact absurd hag (hreset rest)

/-- Settles O25. -/
theorem errorLeftOnlyByReset : Obligations.ErrorLeftOnlyByReset := by
  intro s t hp hreset h
  obtain ⟨_, _, _, _, rfl⟩ := step_of_error hp hreset h
  exact ⟨hp, rfl, rfl, rfl, rfl⟩

/-! ### No other cause (R150) -/

/-- A turn of the block raises nothing: it leaves `STATE`, or ends the command at `DONE` (R33, R34). -/
theorem blockTurn_phase {s t : State} (h : blockTurn s = .next t) : t.phase = s.phase ∨ t.phase = .done := by
  rcases blockTurn_cases h with ⟨_, ho⟩ | ⟨_, _, ho⟩ | ⟨_, _, ho⟩ | ⟨_, _, ho⟩
  · cases ho; exact .inl rfl
  · rcases byteStep_cases ho with ⟨b, _, ht⟩ | ⟨_, ht⟩ <;> cases ht
    exact .inl (by simp)
  · cases ho
    rcases finish_cases s with ⟨_, _, hf⟩ | ⟨_, _, hf⟩ | ⟨_, _, hf⟩ | ⟨_, _, _, hf⟩
    case inr.inr.inr => rw [hf]; exact .inl rfl
    all_goals rw [hf]; exact .inr rfl
  · cases ho; exact .inl rfl

theorem blockTurn_not_error {s t : State} (h : blockTurn s = .next t) (hp : s.phase ≠ .error) : t.phase ≠ .error := by
  rcases blockTurn_phase h with ht | ht <;> simp [ht, hp]

/-- An access of the host that enters `ERROR` raises one of the two exceptions. -/
theorem hostAccess_raises {a : Access} {s t : State} (h : hostAccess a s = .next t) (hs : s.phase ≠ .error)
    (ht : t.phase = .error) : Raises a s t := by
  cases a with
  | writeCmd w =>
    rcases writeCmd_cases h with ⟨_, i, _, ho⟩ | ⟨hr, e, hd, ho⟩ | ⟨hbusy, ho⟩ | ⟨herr, _⟩
    · cases ho
      obtain ⟨_, hdone | hrun⟩ := cmdEffect_no_exception i (latchCmd (encode i) s)
      · rw [hdone] at ht; cases ht
      · rw [hrun] at ht; cases ht
    · cases ho; exact .reserved hr hd
    · cases ho; exact .busyCmd w hbusy
    · exact absurd herr hs
  | writeArg v =>
    rcases writeArg_cases h with ⟨_, ho⟩ | ⟨hbusy, ho⟩ | ⟨herr, _⟩
    · cases ho; exact absurd ht hs
    · cases ho; exact .busyArg v hbusy
    · exact absurd herr hs
  | writeStatus v => cases h; exact absurd ht hs
  | writeResult v => cases h; exact absurd ht hs
  | read reg =>
    cases h
    obtain ⟨_, _, hread⟩ := readReg_eq reg s
    rw [hread] at ht; exact absurd ht hs
  | writeBuf i b => rcases writeBuf_cases h with ⟨ho, _⟩ | ⟨ho, _⟩ <;> cases ho; exact absurd ht hs

/-- A step that enters `ERROR` is an access of the host that raises an exception. -/
theorem step_raises {s t : State} (h : step s = .next t) (hs : s.phase ≠ .error) (ht : t.phase = .error) :
    ∃ a rest, s.agenda = .host a :: rest ∧ Raises a (withAgenda rest s) t := by
  rcases step_cases h with ⟨_, hb⟩ | ⟨rest, ⟨_, hb⟩ | ⟨a, hag, ha⟩ | ⟨gaps, _, ho⟩ | ⟨_, ho⟩⟩
  · exact absurd ht (blockTurn_not_error hb hs)
  · exact absurd ht (blockTurn_not_error (s := withAgenda rest s) hb hs)
  · exact ⟨a, rest, hag, hostAccess_raises ha hs ht⟩
  · cases ho; exact absurd ht hs
  · cases ho; cases ht

/-- Settles O26, by the access that raises the exception. -/
theorem exceptionsHaveTwoCauses : Obligations.ExceptionsHaveTwoCauses := by
  intro s t h hs ht
  obtain ⟨a, rest, hag, hraise⟩ := step_raises h hs ht
  cases hraise with
  | reserved hr hd => exact .inl ⟨rfl, hr, _, rest, _, hag, hd, rfl⟩
  | busyCmd w hbusy => exact .inr ⟨rfl, hbusy, rest, .inl ⟨w, hag⟩⟩
  | busyArg v hbusy => exact .inr ⟨rfl, hbusy, rest, .inr ⟨v, hag⟩⟩

end Sys2Proof.Machine
end

section
/-! PROOFS. Reset and hazards: the reset event (R170), the store that a running command forbids (R176), the life of
`RESULT` (R177), and the progress of a command left alone (R179). -/

namespace Sys2Proof.Machine

/-! ### The end of a running command (R179) -/

/-- The bytes `BUF` supplies below `LEN`; an index never supplied counts as 0. -/
def operandBytes (s : State) : List U8 :=
  (List.range s.len.toNat).map fun i => (Memory.read s.buf i).getD 0

@[simp] theorem operandBytes_length (s : State) : (operandBytes s).length = s.len.toNat := by simp [operandBytes]

/-- Where every operand byte was supplied, `BUF` holds `operandBytes`. -/
theorem Supplied.read_eq {s : State} (h : Supplied s) {i : Nat} (hi : i < s.len.toNat) :
    Memory.read s.buf i = (operandBytes s)[i]? := by
  obtain ⟨b, hb⟩ := Option.ne_none_iff_exists'.1 (h i hi)
  simp [operandBytes, hi, hb]

/-- A running command over supplied bytes is a run over `operandBytes`, wherever in it the command stands. -/
theorem Supplied.owes {s : State} (h : Supplied s) (hinv : MachineInv s) (hp : s.phase = .busy) :
    Owes (operandBytes s) s (stepsAhead s) (resultAhead (operandBytes s) s) := by
  obtain ⟨_, _, hrun⟩ := hinv
  obtain ⟨hidx, _⟩ := hrun hp
  exact .running hp
    { len := (operandBytes_length s).symm
      idx := hidx
      bytes := fun i hi => h.read_eq (operandBytes_length s ▸ hi) }

/-- With nothing on the agenda every step is the block's, so the block is `DONE` after the steps it owes. -/
theorem Owes.runs_to_done {bs : List U8} {s : State} {n : Nat} {r : U64} (h : Owes bs s n r) (ha : s.agenda = []) :
    ∃ t, Machine.runSteps n s = .next t ∧ t.phase = .done ∧ t.result = r := by
  induction n generalizing s with
  | zero => exact ⟨s, rfl, h.done_of_zero rfl⟩
  | succ n ih =>
    obtain ⟨t, ht, howes⟩ := h.blockTurn
    have hag : t.agenda = [] := (TurnFrame.block ht).agenda.trans ha
    obtain ⟨v, hv, hend⟩ := ih howes hag
    exact ⟨v, (runSteps_succ n ((step_empty ha).trans ht)).trans hv, hend⟩

/-- At most two passes are left, each of a step per byte and a `Finish`. -/
theorem stepsAhead_le (s : State) : stepsAhead s ≤ 2 * s.len.toNat + 2 := by
  unfold stepsAhead
  split <;> omega

/-- Settles O47: what a running command owes is within the bound, and is paid off step by step. -/
theorem runningCommandFinishes : Obligations.RunningCommandFinishes := by
  intro s hinv hp ha hs
  obtain ⟨t, ht, hdone, _⟩ := (hs.owes hinv hp).runs_to_done ha
  exact ⟨stepsAhead s, t, stepsAhead_le s, ht, hdone⟩

/-! ### The life of `RESULT` (R177) -/

/-- While no command runs, no access of the host but a write to `CMD` reaches `STATE` or `RESULT` (R27). -/
theorem hostAccess_keeps_result {a : Access} {s t : State} (hp : s.phase ≠ .busy) (hcmd : ∀ w, a ≠ .writeCmd w)
    (h : hostAccess a s = .next t) : t.phase = s.phase ∧ t.result = s.result := by
  cases a with
  | writeArg v =>
    rcases writeArg_cases h with ⟨_, ho⟩ | ⟨hbusy, _⟩ | ⟨_, ho⟩
    · cases ho; exact ⟨rfl, rfl⟩
    · exact absurd hbusy hp
    · cases ho; exact ⟨rfl, rfl⟩
  | writeCmd w => exact absurd rfl (hcmd w)
  | writeStatus v => cases h; exact ⟨rfl, rfl⟩
  | writeResult v => cases h; exact ⟨rfl, rfl⟩
  | read reg =>
    cases h
    obtain ⟨_, _, hread⟩ := readReg_eq reg s
    rw [hread]; exact ⟨rfl, rfl⟩
  | writeBuf i b => cases (writeBuf_taken (.inl hp)).symm.trans h; exact ⟨rfl, rfl⟩

/-- While no command runs, no step but a write to `CMD` or a reset reaches `STATE` or `RESULT`. -/
theorem step_keeps_result {s t : State} (hp : s.phase ≠ .busy)
    (hcmd : ∀ w rest, s.agenda ≠ .host (.writeCmd w) :: rest) (hreset : ∀ rest, s.agenda ≠ .reset :: rest)
    (h : step s = .next t) : t.phase = s.phase ∧ t.result = s.result := by
  rcases step_cases h with ⟨_, hb⟩ | ⟨rest, ⟨_, hb⟩ | ⟨a, hag, ha⟩ | ⟨_, _, ho⟩ | ⟨hag, _⟩⟩
  · cases (blockTurn_of_not_busy hp).symm.trans hb; exact ⟨rfl, rfl⟩
  · cases (blockTurn_of_not_busy (s := withAgenda rest s) hp).symm.trans hb; exact ⟨rfl, rfl⟩
  · exact hostAccess_keeps_result (s := withAgenda rest s) hp (fun w hw => hcmd w rest (hw ▸ hag)) ha
  · cases ho; exact ⟨rfl, rfl⟩
  · exact absurd hag (hreset rest)

/-- Settles O35: `DONE` is one of the states in which no command runs. -/
theorem resultLivesUntilNextCommand : Obligations.ResultLivesUntilNextCommand := by
  intro s t hdone hcmd hreset h
  obtain ⟨hphase, hresult⟩ := step_keeps_result (by simp [hdone]) hcmd hreset h
  exact ⟨hphase.trans hdone, hresult⟩

/-! ### The reset event (R170) and the forbidden store (R176) -/

theorem step_reset {s : State} {rest : List Turn} (h : s.agenda = .reset :: rest) :
    step s = .next (resetBlock (withAgenda rest s)) := step_turn h

/-- Settles O30. -/
theorem resetEventRestoresIdle : Obligations.ResetEventRestoresIdle := fun _ _ ha =>
  ⟨_, step_reset ha, rfl, rfl, rfl, rfl, rfl, fun _ => rfl⟩

/-- Settles O37: the second branch of `writeBuf_cases`, a store that is taken, needs an operand byte left as it was. -/
theorem operandChangeRefused : Obligations.OperandChangeRefused := by
  intro s i b rest ha hp hi hne
  rw [step_host ha]
  rcases writeBuf_cases (rfl : writeBuf i b (withAgenda rest s) = _) with ⟨ho, _⟩ | ⟨_, htaken⟩
  · exact ho
  · exact absurd ⟨hp, hi, hne⟩ htaken

end Sys2Proof.Machine
end
